-- ==== Sys2Proof/Word.lean ====
section
/-! DEFINITION. The machine's word types (00_scope.md R8: registers and the command word are 32 bits, a byte is 8 bits;
30_encoding.md R53, R54, R60: packed pixel words and half-floats are 16 bits). -/

namespace Sys2Proof

/-- A byte: 8 bits (R8). -/
abbrev Byte := BitVec 8

/-- A 16-bit pixel word or half-float word (R53, R54, R60). -/
abbrev Half := BitVec 16

/-- A register or header field: 32 bits (R8, R32). -/
abbrev Word := BitVec 32

end Sys2Proof
end

