-- ==== Sys2Proof/Config.lean ====
section
/-! DEFINITION. The configuration `CFG` of 00_scope.md R6, the closed enumeration of texture-format variants it is
indexed by, its default values, and the draws of the spec as opaque functions of the draw counter.

`Config` is plain data: every state carries its configuration (log entry 5), so a statement about every state is a
statement about every configuration. The one field of R6 that is a function, `BlockDecompress`, is held as a finite
table of answers in front of an opaque function (log entry 6). -/

namespace Sys2Proof

/-- The closed enumeration `TextureFormatVariant`, in the source's order (30_encoding.md R47). -/
inductive Variant
  | dxt1 | dxt3 | dxt5 | bc4 | bc5 | bc7
  | a8r8g8b8 | x8r8g8b8 | a4r4g4b4 | a1r5g5b5 | l8 | a8 | d16
  | r32f | g16r16f | g32r32f | a16b16g16r16f | a32b32g32r32f
  | invalid
  deriving DecidableEq, Repr

/-- The 18 variants that are not `INVALID` (R47). -/
def Variant.real : List Variant :=
  [.dxt1, .dxt3, .dxt5, .bc4, .bc5, .bc7,
   .a8r8g8b8, .x8r8g8b8, .a4r4g4b4, .a1r5g5b5, .l8, .a8, .d16,
   .r32f, .g16r16f, .g32r32f, .a16b16g16r16f, .a32b32g32r32f]

/-- The two codes of one catalog record; 0 means "none" for either (40_catalog.md R72). -/
structure Codes where
  fourCC : Word
  dxgi   : Word
  deriving DecidableEq, Repr

/-- `CFG.cat`: the codes of the 18 variants that are not `INVALID` (R6, R72). -/
structure Catalog where
  dxt1 : Codes
  dxt3 : Codes
  dxt5 : Codes
  bc4 : Codes
  bc5 : Codes
  bc7 : Codes
  a8r8g8b8 : Codes
  x8r8g8b8 : Codes
  a4r4g4b4 : Codes
  a1r5g5b5 : Codes
  l8 : Codes
  a8 : Codes
  d16 : Codes
  r32f : Codes
  g16r16f : Codes
  g32r32f : Codes
  a16b16g16r16f : Codes
  a32b32g32r32f : Codes
  deriving DecidableEq, Repr

/-- `CAT[v]`'s code pair; "`INVALID` resolves to (0,0)" (40_catalog.md R72, R74 (e)). -/
def Catalog.codes (c : Catalog) : Variant → Codes
  | .dxt1 => c.dxt1
  | .dxt3 => c.dxt3
  | .dxt5 => c.dxt5
  | .bc4 => c.bc4
  | .bc5 => c.bc5
  | .bc7 => c.bc7
  | .a8r8g8b8 => c.a8r8g8b8
  | .x8r8g8b8 => c.x8r8g8b8
  | .a4r4g4b4 => c.a4r4g4b4
  | .a1r5g5b5 => c.a1r5g5b5
  | .l8 => c.l8
  | .a8 => c.a8
  | .d16 => c.d16
  | .r32f => c.r32f
  | .g16r16f => c.g16r16f
  | .g32r32f => c.g32r32f
  | .a16b16g16r16f => c.a16b16g16r16f
  | .a32b32g32r32f => c.a32b32g32r32f
  | .invalid => ⟨0, 0⟩

/-- The pixel-format sub-block of a header, in the order of 41_header.md R85. -/
structure PixelFormat where
  flags    : Word
  bitCount : Word
  rMask    : Word
  gMask    : Word
  bMask    : Word
  aMask    : Word
  deriving DecidableEq, Repr

/-- `CFG.pf`: what R85 leaves to the configuration. The masks and bit counts of A8R8G8B8 and A1R5G5B5 are fixed by the
source (R7), so only their flags stand here; D16's sub-block is fixed by R85 (log entries 13, 14). -/
structure PixelFormats where
  a8r8g8b8Flags : Word
  a1r5g5b5Flags : Word
  x8r8g8b8 : PixelFormat
  a4r4g4b4 : PixelFormat
  l8 : PixelFormat
  a8 : PixelFormat
  deriving DecidableEq, Repr

/-- `CFG.NIBBLE_SCALE`: "16 or 17" (R6, 90_conflicts.md C2). -/
inductive NibbleScale
  | sixteen
  | seventeen
  deriving DecidableEq, Repr

/-- The multiplier a `NibbleScale` names. -/
def NibbleScale.factor : NibbleScale → Nat
  | .sixteen => 16
  | .seventeen => 17

/-- One written-down answer of the block decompressor: its four arguments (43_pixel_decode.md R113) and what it returns,
`none` for a failure. -/
structure BlockAnswer where
  input   : List Byte
  width   : Nat
  rows    : Nat
  variant : Variant
  answer  : Option (List Byte)
  deriving DecidableEq, Repr

/-- `CFG` (R6). A capacity of `none` is unbounded. -/
structure Config where
  catalog       : Catalog
  alwaysExt     : List Variant
  extSentinel   : Word
  flagsBase     : Word
  flagPitch     : Word
  flagLinearSize : Word
  capsTexture   : Word
  capsMipmap    : Word
  pfFourCC      : Word
  pf            : PixelFormats
  pfExtOverride : Bool
  nibbleScale   : NibbleScale
  ibufCap       : Option Nat
  obufCap       : Option Nat
  blockAnswers  : List BlockAnswer
  deriving DecidableEq, Repr

/-- The default codes of R72. PRESUMED: general knowledge of the DDS format, not the source (log entry 5). -/
def Catalog.defaults : Catalog where
  dxt1 := ⟨0x31545844, 71⟩
  dxt3 := ⟨0x33545844, 74⟩
  dxt5 := ⟨0x35545844, 77⟩
  bc4 := ⟨0x55344342, 80⟩
  bc5 := ⟨0x55354342, 83⟩
  bc7 := ⟨0, 98⟩
  a8r8g8b8 := ⟨0, 87⟩
  x8r8g8b8 := ⟨0, 88⟩
  a4r4g4b4 := ⟨0, 115⟩
  a1r5g5b5 := ⟨0, 86⟩
  l8 := ⟨0, 61⟩
  a8 := ⟨0, 65⟩
  d16 := ⟨0, 55⟩
  r32f := ⟨114, 41⟩
  g16r16f := ⟨112, 34⟩
  g32r32f := ⟨115, 16⟩
  a16b16g16r16f := ⟨113, 10⟩
  a32b32g32r32f := ⟨116, 2⟩

/-- The default sub-blocks of R85. PRESUMED, as far as R85 marks the cells gk or N (log entry 5). -/
def PixelFormats.defaults : PixelFormats where
  a8r8g8b8Flags := 0x41
  a1r5g5b5Flags := 0x41
  x8r8g8b8 := ⟨0x40, 32, 0x00FF0000, 0x0000FF00, 0x000000FF, 0⟩
  a4r4g4b4 := ⟨0x41, 16, 0x0F00, 0x00F0, 0x000F, 0xF000⟩
  l8 := ⟨0x20000, 8, 0xFF, 0, 0, 0⟩
  a8 := ⟨0x2, 8, 0, 0, 0, 0xFF⟩

/-- The default column of R6. PRESUMED (log entry 5): no statement may rest on these values but as a hypothesis. -/
def Config.defaults : Config where
  catalog := .defaults
  alwaysExt := [.bc7]
  extSentinel := 0x30315844
  flagsBase := 0x1007
  flagPitch := 0x8
  flagLinearSize := 0x80000
  capsTexture := 0x1000
  capsMipmap := 0x400000
  pfFourCC := 0x4
  pf := .defaults
  pfExtOverride := false
  nibbleScale := .sixteen
  ibufCap := none
  obufCap := none
  blockAnswers := []

/-- `CFG.BlockDecompress` where no answer is written down: uninterpreted (R113, D22). A free value (log entry 6). -/
opaque Config.freeBlock : List Byte → Nat → Nat → Variant → Option (List Byte)

/-- What a read of an unspecified `IBUF` byte gives: draw number, index (10_state.md R23, R26). A free value (log entry 4). -/
opaque Config.freeIbufByte : Nat → Nat → Byte

/-- What a host read of an unspecified `OBUF` byte gives: draw number, index (R20, R23). A free value (log entry 4). -/
opaque Config.freeObufByte : Nat → Nat → Byte

/-- `CFG.NAN_BYTE`: the byte a half-float NaN converts to: draw number, position of the half-float in the input
(43_pixel_decode.md R120). A free value (log entry 4). -/
opaque Config.freeNanByte : Nat → Nat → Byte

/-- A result register after an exception: draw number, register number (60_exceptions.md R150). A free value (log entry 4). -/
opaque Config.freeResult : Nat → Nat → Word

end Sys2Proof
end

