-- ==== Sys2Proof/Syntax.lean ====
section
/-! DEFINITION. The syntax: register names, the 136 instructions of `opcode_table.json` (one constructor a row), the same
instructions seen as an operation and its variant, and the lines and pseudo-instructions of a host program
(30_encoding.md R66, R67). -/

namespace Sys2Proof

/-- The sixteen registers, in the order of their numbers 0 to 15 (10_state.md R11). -/
inductive Reg
  | cmd | width | height | layers | mips | tlayer | inlen | code
  | status | outlen | rvariant | rwidth | rheight | rlayers | rmips | rcode
  deriving DecidableEq, Repr

/-- All sixteen registers in number order (R11). -/
def Reg.all : List Reg :=
  [.cmd, .width, .height, .layers, .mips, .tlayer, .inlen, .code,
   .status, .outlen, .rvariant, .rwidth, .rheight, .rlayers, .rmips, .rcode]

/-- One constructor per row of `opcode_table.json`: the row's operation, then its variant's name where it takes one.
An instruction has no other operand (30_encoding.md R50). -/
inductive Instr
  | catFourccDXT1
  | catFourccDXT3
  | catFourccDXT5
  | catFourccBC4
  | catFourccBC5
  | catFourccBC7
  | catFourccA8R8G8B8
  | catFourccX8R8G8B8
  | catFourccA4R4G4B4
  | catFourccA1R5G5B5
  | catFourccL8
  | catFourccA8
  | catFourccD16
  | catFourccR32F
  | catFourccG16R16F
  | catFourccG32R32F
  | catFourccA16B16G16R16F
  | catFourccA32B32G32R32F
  | catFourccINVALID
  | catDxgiDXT1
  | catDxgiDXT3
  | catDxgiDXT5
  | catDxgiBC4
  | catDxgiBC5
  | catDxgiBC7
  | catDxgiA8R8G8B8
  | catDxgiX8R8G8B8
  | catDxgiA4R4G4B4
  | catDxgiA1R5G5B5
  | catDxgiL8
  | catDxgiA8
  | catDxgiD16
  | catDxgiR32F
  | catDxgiG16R16F
  | catDxgiG32R32F
  | catDxgiA16B16G16R16F
  | catDxgiA32B32G32R32F
  | catDxgiINVALID
  | catVfourcc
  | catVdxgi
  | hdrBuildDXT1
  | hdrBuildDXT3
  | hdrBuildDXT5
  | hdrBuildBC4
  | hdrBuildBC5
  | hdrBuildBC7
  | hdrBuildA8R8G8B8
  | hdrBuildX8R8G8B8
  | hdrBuildA4R4G4B4
  | hdrBuildA1R5G5B5
  | hdrBuildL8
  | hdrBuildA8
  | hdrBuildD16
  | hdrBuildR32F
  | hdrBuildG16R16F
  | hdrBuildG32R32F
  | hdrBuildA16B16G16R16F
  | hdrBuildA32B32G32R32F
  | hdrBuildINVALID
  | hdrParse
  | mipSizesDXT1
  | mipSizesDXT3
  | mipSizesDXT5
  | mipSizesBC4
  | mipSizesBC5
  | mipSizesBC7
  | mipSizesA8R8G8B8
  | mipSizesX8R8G8B8
  | mipSizesA4R4G4B4
  | mipSizesA1R5G5B5
  | mipSizesL8
  | mipSizesA8
  | mipSizesD16
  | mipSizesR32F
  | mipSizesG16R16F
  | mipSizesG32R32F
  | mipSizesA16B16G16R16F
  | mipSizesA32B32G32R32F
  | mipSizesINVALID
  | mipTakeDXT1
  | mipTakeDXT3
  | mipTakeDXT5
  | mipTakeBC4
  | mipTakeBC5
  | mipTakeBC7
  | mipTakeA8R8G8B8
  | mipTakeX8R8G8B8
  | mipTakeA4R4G4B4
  | mipTakeA1R5G5B5
  | mipTakeL8
  | mipTakeA8
  | mipTakeD16
  | mipTakeR32F
  | mipTakeG16R16F
  | mipTakeG32R32F
  | mipTakeA16B16G16R16F
  | mipTakeA32B32G32R32F
  | mipTakeINVALID
  | pixDecodeDXT1
  | pixDecodeDXT3
  | pixDecodeDXT5
  | pixDecodeBC4
  | pixDecodeBC5
  | pixDecodeBC7
  | pixDecodeA8R8G8B8
  | pixDecodeX8R8G8B8
  | pixDecodeA4R4G4B4
  | pixDecodeA1R5G5B5
  | pixDecodeL8
  | pixDecodeA8
  | pixDecodeD16
  | pixDecodeR32F
  | pixDecodeG16R16F
  | pixDecodeG32R32F
  | pixDecodeA16B16G16R16F
  | pixDecodeA32B32G32R32F
  | pixDecodeINVALID
  | pixEncodeDXT1
  | pixEncodeDXT3
  | pixEncodeDXT5
  | pixEncodeBC4
  | pixEncodeBC5
  | pixEncodeBC7
  | pixEncodeA8R8G8B8
  | pixEncodeX8R8G8B8
  | pixEncodeA4R4G4B4
  | pixEncodeA1R5G5B5
  | pixEncodeL8
  | pixEncodeA8
  | pixEncodeD16
  | pixEncodeR32F
  | pixEncodeG16R16F
  | pixEncodeG32R32F
  | pixEncodeA16B16G16R16F
  | pixEncodeA32B32G32R32F
  | pixEncodeINVALID
  deriving DecidableEq, Repr

/-- The ten operations of 30_encoding.md R48 with the variant those that take one are specialised by (R2). -/
inductive Command
  | catFourcc (v : Variant)
  | catDxgi (v : Variant)
  | catVfourcc
  | catVdxgi
  | hdrBuild (v : Variant)
  | hdrParse
  | mipSizes (v : Variant)
  | mipTake (v : Variant)
  | pixDecode (v : Variant)
  | pixEncode (v : Variant)
  deriving DecidableEq, Repr

/-- One line of a host program (R66). A value is the integer the line writes. -/
inductive HostLine
  | set (r : Reg) (value : Int)
  | ibuf (bytes : List Byte)
  | command (i : Instr)
  | get (r : Reg)
  | obuf (n : Nat)
  | comment
  deriving DecidableEq, Repr

/-- The pseudo-instructions: the source's function signatures (R67). -/
inductive Pseudo
  | fourCCOf (v : Variant)
  | dxgiOf (v : Variant)
  | variantOfFourCC (c : Word)
  | variantOfDxgi (c : Word)
  | build (v : Variant) (w h l m : Int)
  | parse (bytes : List Byte)
  | computeLevelSizes (v : Variant) (w h : Int)
  | takeLevels (v : Variant) (w h n : Int)
  | decode (bytes : List Byte) (w h : Int) (v : Variant) (l t : Int)
  | encode (bytes : List Byte) (v : Variant) (l : Int)
  deriving DecidableEq, Repr

end Sys2Proof
end

