-- ==== Sys2Proof/Decode.lean ====
section
/-! DEFINITION. The decoder and the encoder of the command word (30_encoding.md R45 to R49). A command word is a 32-bit
value written to `CMD`, not bytes of a memory: the decoder is total on every 32-bit word and rejects by name. -/

namespace Sys2Proof

/-- Field `OP`, bits 7:0 (R46). -/
def opField (w : Word) : Nat := (w.extractLsb' 0 8).toNat

/-- Field `VAR`, bits 15:8 (R46). -/
def varField (w : Word) : Nat := (w.extractLsb' 8 8).toNat

/-- Field `ZERO`, bits 31:16 (R46). -/
def zeroField (w : Word) : Nat := (w.extractLsb' 16 16).toNat

/-- The variant code: the position in the source's list (R47). -/
def Variant.code : Variant → Nat
  | .dxt1 => 0
  | .dxt3 => 1
  | .dxt5 => 2
  | .bc4 => 3
  | .bc5 => 4
  | .bc7 => 5
  | .a8r8g8b8 => 6
  | .x8r8g8b8 => 7
  | .a4r4g4b4 => 8
  | .a1r5g5b5 => 9
  | .l8 => 10
  | .a8 => 11
  | .d16 => 12
  | .r32f => 13
  | .g16r16f => 14
  | .g32r32f => 15
  | .a16b16g16r16f => 16
  | .a32b32g32r32f => 17
  | .invalid => 18

/-- The variant of a code; 19 and above are no variant (R47, R49 (d)). -/
def Variant.ofCode : Nat → Option Variant
  | 0 => some .dxt1
  | 1 => some .dxt3
  | 2 => some .dxt5
  | 3 => some .bc4
  | 4 => some .bc5
  | 5 => some .bc7
  | 6 => some .a8r8g8b8
  | 7 => some .x8r8g8b8
  | 8 => some .a4r4g4b4
  | 9 => some .a1r5g5b5
  | 10 => some .l8
  | 11 => some .a8
  | 12 => some .d16
  | 13 => some .r32f
  | 14 => some .g16r16f
  | 15 => some .g32r32f
  | 16 => some .a16b16g16r16f
  | 17 => some .a32b32g32r32f
  | 18 => some .invalid
  | _ => none

/-- What an operation code selects: an operation that takes no variant, or one that does (R48, column "takes `VAR`"). -/
inductive OpShape
  | plain (c : Command)
  | variant (f : Variant → Command)

/-- The ten operation codes (R48); every other code is none. -/
def operationOf : Nat → Option OpShape
  | 0x01 => some (.variant .catFourcc)
  | 0x02 => some (.variant .catDxgi)
  | 0x03 => some (.plain .catVfourcc)
  | 0x04 => some (.plain .catVdxgi)
  | 0x10 => some (.variant .hdrBuild)
  | 0x11 => some (.plain .hdrParse)
  | 0x20 => some (.variant .mipSizes)
  | 0x21 => some (.variant .mipTake)
  | 0x30 => some (.variant .pixDecode)
  | 0x31 => some (.variant .pixEncode)
  | _ => none

/-- The operation code of a command (R48). -/
def Command.opCode : Command → Nat
  | .catFourcc _ => 0x01
  | .catDxgi _ => 0x02
  | .catVfourcc => 0x03
  | .catVdxgi => 0x04
  | .hdrBuild _ => 0x10
  | .hdrParse => 0x11
  | .mipSizes _ => 0x20
  | .mipTake _ => 0x21
  | .pixDecode _ => 0x30
  | .pixEncode _ => 0x31

/-- The variant a command is specialised by, where it takes one (R48). -/
def Command.variant? : Command → Option Variant
  | .catFourcc v => some v
  | .catDxgi v => some v
  | .catVfourcc => none
  | .catVdxgi => none
  | .hdrBuild v => some v
  | .hdrParse => none
  | .mipSizes v => some v
  | .mipTake v => some v
  | .pixDecode v => some v
  | .pixEncode v => some v

/-- The `VAR` field of a command: the variant's code, 0 where it takes none (R46). -/
def Command.varCode (c : Command) : Nat :=
  match c.variant? with
  | some v => v.code
  | none => 0

/-- The instruction of a command: the row of `opcode_table.json` named after the operation and the variant (R2, R48). -/
def Command.instr : Command → Instr
  | .catFourcc .dxt1 => .catFourccDXT1
  | .catFourcc .dxt3 => .catFourccDXT3
  | .catFourcc .dxt5 => .catFourccDXT5
  | .catFourcc .bc4 => .catFourccBC4
  | .catFourcc .bc5 => .catFourccBC5
  | .catFourcc .bc7 => .catFourccBC7
  | .catFourcc .a8r8g8b8 => .catFourccA8R8G8B8
  | .catFourcc .x8r8g8b8 => .catFourccX8R8G8B8
  | .catFourcc .a4r4g4b4 => .catFourccA4R4G4B4
  | .catFourcc .a1r5g5b5 => .catFourccA1R5G5B5
  | .catFourcc .l8 => .catFourccL8
  | .catFourcc .a8 => .catFourccA8
  | .catFourcc .d16 => .catFourccD16
  | .catFourcc .r32f => .catFourccR32F
  | .catFourcc .g16r16f => .catFourccG16R16F
  | .catFourcc .g32r32f => .catFourccG32R32F
  | .catFourcc .a16b16g16r16f => .catFourccA16B16G16R16F
  | .catFourcc .a32b32g32r32f => .catFourccA32B32G32R32F
  | .catFourcc .invalid => .catFourccINVALID
  | .catDxgi .dxt1 => .catDxgiDXT1
  | .catDxgi .dxt3 => .catDxgiDXT3
  | .catDxgi .dxt5 => .catDxgiDXT5
  | .catDxgi .bc4 => .catDxgiBC4
  | .catDxgi .bc5 => .catDxgiBC5
  | .catDxgi .bc7 => .catDxgiBC7
  | .catDxgi .a8r8g8b8 => .catDxgiA8R8G8B8
  | .catDxgi .x8r8g8b8 => .catDxgiX8R8G8B8
  | .catDxgi .a4r4g4b4 => .catDxgiA4R4G4B4
  | .catDxgi .a1r5g5b5 => .catDxgiA1R5G5B5
  | .catDxgi .l8 => .catDxgiL8
  | .catDxgi .a8 => .catDxgiA8
  | .catDxgi .d16 => .catDxgiD16
  | .catDxgi .r32f => .catDxgiR32F
  | .catDxgi .g16r16f => .catDxgiG16R16F
  | .catDxgi .g32r32f => .catDxgiG32R32F
  | .catDxgi .a16b16g16r16f => .catDxgiA16B16G16R16F
  | .catDxgi .a32b32g32r32f => .catDxgiA32B32G32R32F
  | .catDxgi .invalid => .catDxgiINVALID
  | .catVfourcc => .catVfourcc
  | .catVdxgi => .catVdxgi
  | .hdrBuild .dxt1 => .hdrBuildDXT1
  | .hdrBuild .dxt3 => .hdrBuildDXT3
  | .hdrBuild .dxt5 => .hdrBuildDXT5
  | .hdrBuild .bc4 => .hdrBuildBC4
  | .hdrBuild .bc5 => .hdrBuildBC5
  | .hdrBuild .bc7 => .hdrBuildBC7
  | .hdrBuild .a8r8g8b8 => .hdrBuildA8R8G8B8
  | .hdrBuild .x8r8g8b8 => .hdrBuildX8R8G8B8
  | .hdrBuild .a4r4g4b4 => .hdrBuildA4R4G4B4
  | .hdrBuild .a1r5g5b5 => .hdrBuildA1R5G5B5
  | .hdrBuild .l8 => .hdrBuildL8
  | .hdrBuild .a8 => .hdrBuildA8
  | .hdrBuild .d16 => .hdrBuildD16
  | .hdrBuild .r32f => .hdrBuildR32F
  | .hdrBuild .g16r16f => .hdrBuildG16R16F
  | .hdrBuild .g32r32f => .hdrBuildG32R32F
  | .hdrBuild .a16b16g16r16f => .hdrBuildA16B16G16R16F
  | .hdrBuild .a32b32g32r32f => .hdrBuildA32B32G32R32F
  | .hdrBuild .invalid => .hdrBuildINVALID
  | .hdrParse => .hdrParse
  | .mipSizes .dxt1 => .mipSizesDXT1
  | .mipSizes .dxt3 => .mipSizesDXT3
  | .mipSizes .dxt5 => .mipSizesDXT5
  | .mipSizes .bc4 => .mipSizesBC4
  | .mipSizes .bc5 => .mipSizesBC5
  | .mipSizes .bc7 => .mipSizesBC7
  | .mipSizes .a8r8g8b8 => .mipSizesA8R8G8B8
  | .mipSizes .x8r8g8b8 => .mipSizesX8R8G8B8
  | .mipSizes .a4r4g4b4 => .mipSizesA4R4G4B4
  | .mipSizes .a1r5g5b5 => .mipSizesA1R5G5B5
  | .mipSizes .l8 => .mipSizesL8
  | .mipSizes .a8 => .mipSizesA8
  | .mipSizes .d16 => .mipSizesD16
  | .mipSizes .r32f => .mipSizesR32F
  | .mipSizes .g16r16f => .mipSizesG16R16F
  | .mipSizes .g32r32f => .mipSizesG32R32F
  | .mipSizes .a16b16g16r16f => .mipSizesA16B16G16R16F
  | .mipSizes .a32b32g32r32f => .mipSizesA32B32G32R32F
  | .mipSizes .invalid => .mipSizesINVALID
  | .mipTake .dxt1 => .mipTakeDXT1
  | .mipTake .dxt3 => .mipTakeDXT3
  | .mipTake .dxt5 => .mipTakeDXT5
  | .mipTake .bc4 => .mipTakeBC4
  | .mipTake .bc5 => .mipTakeBC5
  | .mipTake .bc7 => .mipTakeBC7
  | .mipTake .a8r8g8b8 => .mipTakeA8R8G8B8
  | .mipTake .x8r8g8b8 => .mipTakeX8R8G8B8
  | .mipTake .a4r4g4b4 => .mipTakeA4R4G4B4
  | .mipTake .a1r5g5b5 => .mipTakeA1R5G5B5
  | .mipTake .l8 => .mipTakeL8
  | .mipTake .a8 => .mipTakeA8
  | .mipTake .d16 => .mipTakeD16
  | .mipTake .r32f => .mipTakeR32F
  | .mipTake .g16r16f => .mipTakeG16R16F
  | .mipTake .g32r32f => .mipTakeG32R32F
  | .mipTake .a16b16g16r16f => .mipTakeA16B16G16R16F
  | .mipTake .a32b32g32r32f => .mipTakeA32B32G32R32F
  | .mipTake .invalid => .mipTakeINVALID
  | .pixDecode .dxt1 => .pixDecodeDXT1
  | .pixDecode .dxt3 => .pixDecodeDXT3
  | .pixDecode .dxt5 => .pixDecodeDXT5
  | .pixDecode .bc4 => .pixDecodeBC4
  | .pixDecode .bc5 => .pixDecodeBC5
  | .pixDecode .bc7 => .pixDecodeBC7
  | .pixDecode .a8r8g8b8 => .pixDecodeA8R8G8B8
  | .pixDecode .x8r8g8b8 => .pixDecodeX8R8G8B8
  | .pixDecode .a4r4g4b4 => .pixDecodeA4R4G4B4
  | .pixDecode .a1r5g5b5 => .pixDecodeA1R5G5B5
  | .pixDecode .l8 => .pixDecodeL8
  | .pixDecode .a8 => .pixDecodeA8
  | .pixDecode .d16 => .pixDecodeD16
  | .pixDecode .r32f => .pixDecodeR32F
  | .pixDecode .g16r16f => .pixDecodeG16R16F
  | .pixDecode .g32r32f => .pixDecodeG32R32F
  | .pixDecode .a16b16g16r16f => .pixDecodeA16B16G16R16F
  | .pixDecode .a32b32g32r32f => .pixDecodeA32B32G32R32F
  | .pixDecode .invalid => .pixDecodeINVALID
  | .pixEncode .dxt1 => .pixEncodeDXT1
  | .pixEncode .dxt3 => .pixEncodeDXT3
  | .pixEncode .dxt5 => .pixEncodeDXT5
  | .pixEncode .bc4 => .pixEncodeBC4
  | .pixEncode .bc5 => .pixEncodeBC5
  | .pixEncode .bc7 => .pixEncodeBC7
  | .pixEncode .a8r8g8b8 => .pixEncodeA8R8G8B8
  | .pixEncode .x8r8g8b8 => .pixEncodeX8R8G8B8
  | .pixEncode .a4r4g4b4 => .pixEncodeA4R4G4B4
  | .pixEncode .a1r5g5b5 => .pixEncodeA1R5G5B5
  | .pixEncode .l8 => .pixEncodeL8
  | .pixEncode .a8 => .pixEncodeA8
  | .pixEncode .d16 => .pixEncodeD16
  | .pixEncode .r32f => .pixEncodeR32F
  | .pixEncode .g16r16f => .pixEncodeG16R16F
  | .pixEncode .g32r32f => .pixEncodeG32R32F
  | .pixEncode .a16b16g16r16f => .pixEncodeA16B16G16R16F
  | .pixEncode .a32b32g32r32f => .pixEncodeA32B32G32R32F
  | .pixEncode .invalid => .pixEncodeINVALID

/-- The operation and variant of an instruction (R2). -/
def Instr.command : Instr → Command
  | .catFourccDXT1 => .catFourcc .dxt1
  | .catFourccDXT3 => .catFourcc .dxt3
  | .catFourccDXT5 => .catFourcc .dxt5
  | .catFourccBC4 => .catFourcc .bc4
  | .catFourccBC5 => .catFourcc .bc5
  | .catFourccBC7 => .catFourcc .bc7
  | .catFourccA8R8G8B8 => .catFourcc .a8r8g8b8
  | .catFourccX8R8G8B8 => .catFourcc .x8r8g8b8
  | .catFourccA4R4G4B4 => .catFourcc .a4r4g4b4
  | .catFourccA1R5G5B5 => .catFourcc .a1r5g5b5
  | .catFourccL8 => .catFourcc .l8
  | .catFourccA8 => .catFourcc .a8
  | .catFourccD16 => .catFourcc .d16
  | .catFourccR32F => .catFourcc .r32f
  | .catFourccG16R16F => .catFourcc .g16r16f
  | .catFourccG32R32F => .catFourcc .g32r32f
  | .catFourccA16B16G16R16F => .catFourcc .a16b16g16r16f
  | .catFourccA32B32G32R32F => .catFourcc .a32b32g32r32f
  | .catFourccINVALID => .catFourcc .invalid
  | .catDxgiDXT1 => .catDxgi .dxt1
  | .catDxgiDXT3 => .catDxgi .dxt3
  | .catDxgiDXT5 => .catDxgi .dxt5
  | .catDxgiBC4 => .catDxgi .bc4
  | .catDxgiBC5 => .catDxgi .bc5
  | .catDxgiBC7 => .catDxgi .bc7
  | .catDxgiA8R8G8B8 => .catDxgi .a8r8g8b8
  | .catDxgiX8R8G8B8 => .catDxgi .x8r8g8b8
  | .catDxgiA4R4G4B4 => .catDxgi .a4r4g4b4
  | .catDxgiA1R5G5B5 => .catDxgi .a1r5g5b5
  | .catDxgiL8 => .catDxgi .l8
  | .catDxgiA8 => .catDxgi .a8
  | .catDxgiD16 => .catDxgi .d16
  | .catDxgiR32F => .catDxgi .r32f
  | .catDxgiG16R16F => .catDxgi .g16r16f
  | .catDxgiG32R32F => .catDxgi .g32r32f
  | .catDxgiA16B16G16R16F => .catDxgi .a16b16g16r16f
  | .catDxgiA32B32G32R32F => .catDxgi .a32b32g32r32f
  | .catDxgiINVALID => .catDxgi .invalid
  | .catVfourcc => .catVfourcc
  | .catVdxgi => .catVdxgi
  | .hdrBuildDXT1 => .hdrBuild .dxt1
  | .hdrBuildDXT3 => .hdrBuild .dxt3
  | .hdrBuildDXT5 => .hdrBuild .dxt5
  | .hdrBuildBC4 => .hdrBuild .bc4
  | .hdrBuildBC5 => .hdrBuild .bc5
  | .hdrBuildBC7 => .hdrBuild .bc7
  | .hdrBuildA8R8G8B8 => .hdrBuild .a8r8g8b8
  | .hdrBuildX8R8G8B8 => .hdrBuild .x8r8g8b8
  | .hdrBuildA4R4G4B4 => .hdrBuild .a4r4g4b4
  | .hdrBuildA1R5G5B5 => .hdrBuild .a1r5g5b5
  | .hdrBuildL8 => .hdrBuild .l8
  | .hdrBuildA8 => .hdrBuild .a8
  | .hdrBuildD16 => .hdrBuild .d16
  | .hdrBuildR32F => .hdrBuild .r32f
  | .hdrBuildG16R16F => .hdrBuild .g16r16f
  | .hdrBuildG32R32F => .hdrBuild .g32r32f
  | .hdrBuildA16B16G16R16F => .hdrBuild .a16b16g16r16f
  | .hdrBuildA32B32G32R32F => .hdrBuild .a32b32g32r32f
  | .hdrBuildINVALID => .hdrBuild .invalid
  | .hdrParse => .hdrParse
  | .mipSizesDXT1 => .mipSizes .dxt1
  | .mipSizesDXT3 => .mipSizes .dxt3
  | .mipSizesDXT5 => .mipSizes .dxt5
  | .mipSizesBC4 => .mipSizes .bc4
  | .mipSizesBC5 => .mipSizes .bc5
  | .mipSizesBC7 => .mipSizes .bc7
  | .mipSizesA8R8G8B8 => .mipSizes .a8r8g8b8
  | .mipSizesX8R8G8B8 => .mipSizes .x8r8g8b8
  | .mipSizesA4R4G4B4 => .mipSizes .a4r4g4b4
  | .mipSizesA1R5G5B5 => .mipSizes .a1r5g5b5
  | .mipSizesL8 => .mipSizes .l8
  | .mipSizesA8 => .mipSizes .a8
  | .mipSizesD16 => .mipSizes .d16
  | .mipSizesR32F => .mipSizes .r32f
  | .mipSizesG16R16F => .mipSizes .g16r16f
  | .mipSizesG32R32F => .mipSizes .g32r32f
  | .mipSizesA16B16G16R16F => .mipSizes .a16b16g16r16f
  | .mipSizesA32B32G32R32F => .mipSizes .a32b32g32r32f
  | .mipSizesINVALID => .mipSizes .invalid
  | .mipTakeDXT1 => .mipTake .dxt1
  | .mipTakeDXT3 => .mipTake .dxt3
  | .mipTakeDXT5 => .mipTake .dxt5
  | .mipTakeBC4 => .mipTake .bc4
  | .mipTakeBC5 => .mipTake .bc5
  | .mipTakeBC7 => .mipTake .bc7
  | .mipTakeA8R8G8B8 => .mipTake .a8r8g8b8
  | .mipTakeX8R8G8B8 => .mipTake .x8r8g8b8
  | .mipTakeA4R4G4B4 => .mipTake .a4r4g4b4
  | .mipTakeA1R5G5B5 => .mipTake .a1r5g5b5
  | .mipTakeL8 => .mipTake .l8
  | .mipTakeA8 => .mipTake .a8
  | .mipTakeD16 => .mipTake .d16
  | .mipTakeR32F => .mipTake .r32f
  | .mipTakeG16R16F => .mipTake .g16r16f
  | .mipTakeG32R32F => .mipTake .g32r32f
  | .mipTakeA16B16G16R16F => .mipTake .a16b16g16r16f
  | .mipTakeA32B32G32R32F => .mipTake .a32b32g32r32f
  | .mipTakeINVALID => .mipTake .invalid
  | .pixDecodeDXT1 => .pixDecode .dxt1
  | .pixDecodeDXT3 => .pixDecode .dxt3
  | .pixDecodeDXT5 => .pixDecode .dxt5
  | .pixDecodeBC4 => .pixDecode .bc4
  | .pixDecodeBC5 => .pixDecode .bc5
  | .pixDecodeBC7 => .pixDecode .bc7
  | .pixDecodeA8R8G8B8 => .pixDecode .a8r8g8b8
  | .pixDecodeX8R8G8B8 => .pixDecode .x8r8g8b8
  | .pixDecodeA4R4G4B4 => .pixDecode .a4r4g4b4
  | .pixDecodeA1R5G5B5 => .pixDecode .a1r5g5b5
  | .pixDecodeL8 => .pixDecode .l8
  | .pixDecodeA8 => .pixDecode .a8
  | .pixDecodeD16 => .pixDecode .d16
  | .pixDecodeR32F => .pixDecode .r32f
  | .pixDecodeG16R16F => .pixDecode .g16r16f
  | .pixDecodeG32R32F => .pixDecode .g32r32f
  | .pixDecodeA16B16G16R16F => .pixDecode .a16b16g16r16f
  | .pixDecodeA32B32G32R32F => .pixDecode .a32b32g32r32f
  | .pixDecodeINVALID => .pixDecode .invalid
  | .pixEncodeDXT1 => .pixEncode .dxt1
  | .pixEncodeDXT3 => .pixEncode .dxt3
  | .pixEncodeDXT5 => .pixEncode .dxt5
  | .pixEncodeBC4 => .pixEncode .bc4
  | .pixEncodeBC5 => .pixEncode .bc5
  | .pixEncodeBC7 => .pixEncode .bc7
  | .pixEncodeA8R8G8B8 => .pixEncode .a8r8g8b8
  | .pixEncodeX8R8G8B8 => .pixEncode .x8r8g8b8
  | .pixEncodeA4R4G4B4 => .pixEncode .a4r4g4b4
  | .pixEncodeA1R5G5B5 => .pixEncode .a1r5g5b5
  | .pixEncodeL8 => .pixEncode .l8
  | .pixEncodeA8 => .pixEncode .a8
  | .pixEncodeD16 => .pixEncode .d16
  | .pixEncodeR32F => .pixEncode .r32f
  | .pixEncodeG16R16F => .pixEncode .g16r16f
  | .pixEncodeG32R32F => .pixEncode .g32r32f
  | .pixEncodeA16B16G16R16F => .pixEncode .a16b16g16r16f
  | .pixEncodeA32B32G32R32F => .pixEncode .a32b32g32r32f
  | .pixEncodeINVALID => .pixEncode .invalid

/-- Why a command word is no instruction: the four conditions of R49. -/
inductive Illegal
  /-- R49 (a): bits 31:16 are not zero. -/
  | highBitsSet
  /-- R49 (b): `OP` is none of the ten codes. -/
  | unknownOperation
  /-- R49 (c): the operation takes no variant and `VAR` is not zero. -/
  | variantNotTaken
  /-- R49 (d): the operation takes a variant and `VAR` is above 18. -/
  | variantOutOfRange
  deriving DecidableEq, Repr

/-- The decoder, testing the conditions of R49 in its order (a) to (d) (R45, R49). -/
def decode (w : Word) : Except Illegal Instr :=
  if zeroField w ≠ 0 then .error .highBitsSet
  else
    match operationOf (opField w) with
    | none => .error .unknownOperation
    | some (.plain c) => if varField w ≠ 0 then .error .variantNotTaken else .ok c.instr
    | some (.variant f) =>
      match Variant.ofCode (varField w) with
      | none => .error .variantOutOfRange
      | some v => .ok (f v).instr

/-- The encoder: the "match" word of each row of `opcode_table.json` (mask `0xFFFFFFFF`). -/
def encode : Instr → Word
  | .catFourccDXT1 => 0x00000001
  | .catFourccDXT3 => 0x00000101
  | .catFourccDXT5 => 0x00000201
  | .catFourccBC4 => 0x00000301
  | .catFourccBC5 => 0x00000401
  | .catFourccBC7 => 0x00000501
  | .catFourccA8R8G8B8 => 0x00000601
  | .catFourccX8R8G8B8 => 0x00000701
  | .catFourccA4R4G4B4 => 0x00000801
  | .catFourccA1R5G5B5 => 0x00000901
  | .catFourccL8 => 0x00000A01
  | .catFourccA8 => 0x00000B01
  | .catFourccD16 => 0x00000C01
  | .catFourccR32F => 0x00000D01
  | .catFourccG16R16F => 0x00000E01
  | .catFourccG32R32F => 0x00000F01
  | .catFourccA16B16G16R16F => 0x00001001
  | .catFourccA32B32G32R32F => 0x00001101
  | .catFourccINVALID => 0x00001201
  | .catDxgiDXT1 => 0x00000002
  | .catDxgiDXT3 => 0x00000102
  | .catDxgiDXT5 => 0x00000202
  | .catDxgiBC4 => 0x00000302
  | .catDxgiBC5 => 0x00000402
  | .catDxgiBC7 => 0x00000502
  | .catDxgiA8R8G8B8 => 0x00000602
  | .catDxgiX8R8G8B8 => 0x00000702
  | .catDxgiA4R4G4B4 => 0x00000802
  | .catDxgiA1R5G5B5 => 0x00000902
  | .catDxgiL8 => 0x00000A02
  | .catDxgiA8 => 0x00000B02
  | .catDxgiD16 => 0x00000C02
  | .catDxgiR32F => 0x00000D02
  | .catDxgiG16R16F => 0x00000E02
  | .catDxgiG32R32F => 0x00000F02
  | .catDxgiA16B16G16R16F => 0x00001002
  | .catDxgiA32B32G32R32F => 0x00001102
  | .catDxgiINVALID => 0x00001202
  | .catVfourcc => 0x00000003
  | .catVdxgi => 0x00000004
  | .hdrBuildDXT1 => 0x00000010
  | .hdrBuildDXT3 => 0x00000110
  | .hdrBuildDXT5 => 0x00000210
  | .hdrBuildBC4 => 0x00000310
  | .hdrBuildBC5 => 0x00000410
  | .hdrBuildBC7 => 0x00000510
  | .hdrBuildA8R8G8B8 => 0x00000610
  | .hdrBuildX8R8G8B8 => 0x00000710
  | .hdrBuildA4R4G4B4 => 0x00000810
  | .hdrBuildA1R5G5B5 => 0x00000910
  | .hdrBuildL8 => 0x00000A10
  | .hdrBuildA8 => 0x00000B10
  | .hdrBuildD16 => 0x00000C10
  | .hdrBuildR32F => 0x00000D10
  | .hdrBuildG16R16F => 0x00000E10
  | .hdrBuildG32R32F => 0x00000F10
  | .hdrBuildA16B16G16R16F => 0x00001010
  | .hdrBuildA32B32G32R32F => 0x00001110
  | .hdrBuildINVALID => 0x00001210
  | .hdrParse => 0x00000011
  | .mipSizesDXT1 => 0x00000020
  | .mipSizesDXT3 => 0x00000120
  | .mipSizesDXT5 => 0x00000220
  | .mipSizesBC4 => 0x00000320
  | .mipSizesBC5 => 0x00000420
  | .mipSizesBC7 => 0x00000520
  | .mipSizesA8R8G8B8 => 0x00000620
  | .mipSizesX8R8G8B8 => 0x00000720
  | .mipSizesA4R4G4B4 => 0x00000820
  | .mipSizesA1R5G5B5 => 0x00000920
  | .mipSizesL8 => 0x00000A20
  | .mipSizesA8 => 0x00000B20
  | .mipSizesD16 => 0x00000C20
  | .mipSizesR32F => 0x00000D20
  | .mipSizesG16R16F => 0x00000E20
  | .mipSizesG32R32F => 0x00000F20
  | .mipSizesA16B16G16R16F => 0x00001020
  | .mipSizesA32B32G32R32F => 0x00001120
  | .mipSizesINVALID => 0x00001220
  | .mipTakeDXT1 => 0x00000021
  | .mipTakeDXT3 => 0x00000121
  | .mipTakeDXT5 => 0x00000221
  | .mipTakeBC4 => 0x00000321
  | .mipTakeBC5 => 0x00000421
  | .mipTakeBC7 => 0x00000521
  | .mipTakeA8R8G8B8 => 0x00000621
  | .mipTakeX8R8G8B8 => 0x00000721
  | .mipTakeA4R4G4B4 => 0x00000821
  | .mipTakeA1R5G5B5 => 0x00000921
  | .mipTakeL8 => 0x00000A21
  | .mipTakeA8 => 0x00000B21
  | .mipTakeD16 => 0x00000C21
  | .mipTakeR32F => 0x00000D21
  | .mipTakeG16R16F => 0x00000E21
  | .mipTakeG32R32F => 0x00000F21
  | .mipTakeA16B16G16R16F => 0x00001021
  | .mipTakeA32B32G32R32F => 0x00001121
  | .mipTakeINVALID => 0x00001221
  | .pixDecodeDXT1 => 0x00000030
  | .pixDecodeDXT3 => 0x00000130
  | .pixDecodeDXT5 => 0x00000230
  | .pixDecodeBC4 => 0x00000330
  | .pixDecodeBC5 => 0x00000430
  | .pixDecodeBC7 => 0x00000530
  | .pixDecodeA8R8G8B8 => 0x00000630
  | .pixDecodeX8R8G8B8 => 0x00000730
  | .pixDecodeA4R4G4B4 => 0x00000830
  | .pixDecodeA1R5G5B5 => 0x00000930
  | .pixDecodeL8 => 0x00000A30
  | .pixDecodeA8 => 0x00000B30
  | .pixDecodeD16 => 0x00000C30
  | .pixDecodeR32F => 0x00000D30
  | .pixDecodeG16R16F => 0x00000E30
  | .pixDecodeG32R32F => 0x00000F30
  | .pixDecodeA16B16G16R16F => 0x00001030
  | .pixDecodeA32B32G32R32F => 0x00001130
  | .pixDecodeINVALID => 0x00001230
  | .pixEncodeDXT1 => 0x00000031
  | .pixEncodeDXT3 => 0x00000131
  | .pixEncodeDXT5 => 0x00000231
  | .pixEncodeBC4 => 0x00000331
  | .pixEncodeBC5 => 0x00000431
  | .pixEncodeBC7 => 0x00000531
  | .pixEncodeA8R8G8B8 => 0x00000631
  | .pixEncodeX8R8G8B8 => 0x00000731
  | .pixEncodeA4R4G4B4 => 0x00000831
  | .pixEncodeA1R5G5B5 => 0x00000931
  | .pixEncodeL8 => 0x00000A31
  | .pixEncodeA8 => 0x00000B31
  | .pixEncodeD16 => 0x00000C31
  | .pixEncodeR32F => 0x00000D31
  | .pixEncodeG16R16F => 0x00000E31
  | .pixEncodeG32R32F => 0x00000F31
  | .pixEncodeA16B16G16R16F => 0x00001031
  | .pixEncodeA32B32G32R32F => 0x00001131
  | .pixEncodeINVALID => 0x00001231

/-- The instruction of an opcode-table word. The word is the value of `CMD` itself, so no byte order enters; a number
that is no 32-bit word is no command word (log entry 19). -/
def decodeTableWord (_nbits w : Nat) : Option Instr :=
  if w < 2 ^ 32 then (decode (BitVec.ofNat 32 w)).toOption else none

end Sys2Proof
end

