-- ==== Sys2Proof/WellFormed.lean ====
section
/-! DEFINITION. What is checked of terms: a configuration's catalog (40_catalog.md R74), a host program's line
(30_encoding.md R66), an instruction. Smoke tests of each check stand in Sys2Proof/Tests/Slice0.lean. -/

namespace Sys2Proof

/-- R74 (a): the non-zero `fourCC` values of the 18 variants are pairwise distinct. -/
abbrev Config.FourCCsDistinct (c : Config) : Prop :=
  ((Variant.real.map fun v => (c.catalog.codes v).fourCC).filter (· ≠ 0)).Nodup

/-- R74 (b): no non-zero `fourCC` value equals the extension sentinel. -/
abbrev Config.SentinelIsNoFourCC (c : Config) : Prop :=
  ∀ v ∈ Variant.real, (c.catalog.codes v).fourCC ≠ 0 → (c.catalog.codes v).fourCC ≠ c.extSentinel

/-- R74 (c): the non-zero `dxgi` values are pairwise distinct. -/
abbrev Config.DxgisDistinct (c : Config) : Prop :=
  ((Variant.real.map fun v => (c.catalog.codes v).dxgi).filter (· ≠ 0)).Nodup

/-- R74 (d): every variant other than `INVALID` has a FourCC or a DXGI code. -/
abbrev Config.EveryVariantResolves (c : Config) : Prop :=
  ∀ v ∈ Variant.real, (c.catalog.codes v).fourCC ≠ 0 ∨ (c.catalog.codes v).dxgi ≠ 0

/-- 93_implementation_defined.md U3: the sentinel is not zero. -/
abbrev Config.SentinelNotZero (c : Config) : Prop := c.extSentinel ≠ 0

/-- The well-formedness R74 requires of every configuration, with U3 of the sentinel (log entry 8). R74 (e) and (f) hold
of every `Catalog`: `Catalog.codes` gives `INVALID` the pair (0, 0) and a code is a 32-bit word. -/
abbrev Config.Wf (c : Config) : Prop :=
  c.FourCCsDistinct ∧ c.SentinelIsNoFourCC ∧ c.DxgisDistinct ∧ c.EveryVariantResolves ∧ c.SentinelNotZero

/-- The operand registers a `SET` line may name (R66). -/
def Reg.settable : Reg → Bool
  | .width | .height | .layers | .mips | .tlayer | .inlen | .code => true
  | .cmd | .status | .outlen | .rvariant | .rwidth | .rheight | .rlayers | .rmips | .rcode => false

/-- A line of R66 is well formed: a `SET` line names an operand register and a value that is a 32-bit word or the negative
number a 32-bit two's complement word stands for. Every other line is well formed. -/
abbrev HostLine.Wf : HostLine → Prop
  | .set r value => r.settable = true ∧ -(2 ^ 31) ≤ value ∧ value < 2 ^ 32
  | .ibuf _ | .command _ | .get _ | .obuf _ | .comment => True

/-- Every instruction is well formed: a constructor of `Instr` has no operand that could be out of range (R50). -/
abbrev Instr.Wf (_ : Instr) : Prop := True

end Sys2Proof
end

