-- ==== Sys2Proof/Machine/State.lean ====
section
/-! DEFINITION. The state of the block as plain data (10_state.md), the host's accesses, the reasons a step can stop, and
the state right after reset (10_state.md R22, R23, R24; 70_reset_and_hazards.md R167). -/

namespace Sys2Proof.Machine

/-- A byte buffer: the bytes that hold a value, by rising index. A byte that is not listed holds no value: a read of it
is a draw (10_state.md R19, R20, R23, R26; log entry 10). -/
abbrev Memory := List Host.Cell

/-- The canonical form: indices strictly rising. -/
abbrev Memory.wf (m : Memory) : Prop := (m.map Prod.fst).Pairwise (· < ·)

/-- The ten exceptions (60_exceptions.md R141), each an outcome of an operation reported in `STATUS`. -/
inductive Exc
  | unsupportedFormat
  | mipCountExceedsCapacity
  | illegalCommand
  | operandFault
  | lengthFault
  | layerRangeFault
  | fieldOverflow
  | capacityFault
  | headerFault
  | delegateFault
  deriving DecidableEq, Repr

/-- One action at the block's interface (10_state.md R10, 20_memory.md R30, R39; 70_reset_and_hazards.md R165, R175). -/
inductive HostAction
  /-- A host write of a register. -/
  | writeReg (r : Reg) (w : Word)
  /-- A host read of a register. -/
  | readReg (r : Reg)
  /-- A host write of one `IBUF` byte. -/
  | writeIbuf (index : Nat) (b : Byte)
  /-- A host read of one `OBUF` byte. -/
  | readObuf (index : Nat)
  /-- The platform's reset (log entry 9). -/
  | reset
  deriving DecidableEq, Repr

/-- What a host read got back. -/
inductive ReadValue
  | word (w : Word)
  | byte (b : Byte)
  deriving DecidableEq, Repr

/-- Why the machine stops with a fault. -/
inductive Fault
  /-- Raised by a host write of an `IBUF` byte at an index that the capacity says does not exist (10_state.md R19). Safe:
  the model stops where the spec describes no access. -/
  | ibufIndexAbsent
  /-- Raised by a host read of an `OBUF` byte at an index that the capacity says does not exist (R19). Safe: as above. -/
  | obufIndexAbsent
  deriving DecidableEq, Repr

/-- Why a step gives no meaning. -/
inductive Refusal
  /-- Raised by an arm of `exec` for an instruction that has no meaning yet. Safe: nothing runs. -/
  | notModelled (mnemonic : String)
  /-- Raised by a write to `CMD` under a configuration that violates 40_catalog.md R74: "this spec defines nothing"
  (93_implementation_defined.md U2; log entry 7). Safe: nothing runs. -/
  | illFormedConfig
  deriving DecidableEq, Repr

/-- The state: the sixteen registers, the two buffers, the configuration, and three fields of the model's own (`pending`,
`returned`, `draws`). -/
structure State where
  /-- Register 0: the last command word written. -/
  cmd : Word
  /-- Register 1. -/
  width : Word
  /-- Register 2. -/
  height : Word
  /-- Register 3. -/
  layers : Word
  /-- Register 4. -/
  mips : Word
  /-- Register 5. -/
  tlayer : Word
  /-- Register 6: the number of valid bytes in `IBUF`. -/
  inlen : Word
  /-- Register 7. -/
  code : Word
  /-- Register 8, with the fields of R13. -/
  status : Word
  /-- Register 9: the number of valid bytes in `OBUF`. -/
  outlen : Word
  /-- Register 10. -/
  rvariant : Word
  /-- Register 11. -/
  rwidth : Word
  /-- Register 12. -/
  rheight : Word
  /-- Register 13. -/
  rlayers : Word
  /-- Register 14. -/
  rmips : Word
  /-- Register 15. -/
  rcode : Word
  /-- The input buffer (R19). -/
  ibuf : Memory
  /-- The output buffer (R19, R20). -/
  obuf : Memory
  /-- The configuration `CFG`, which no step writes (R6, R21; log entry 5). -/
  cfg : Config
  /-- The host's actions still to come, oldest first (log entry 1). -/
  pending : List HostAction
  /-- What the host's reads got back, newest first (log entry 3). -/
  returned : List ReadValue
  /-- How many draws have been made (log entry 4). -/
  draws : Nat
  deriving DecidableEq, Repr

/-- The state right after reset: every register as R22 gives it, nothing valid in either buffer (R23), the catalog
complete (R24). The configuration is the default column of R6 (log entry 5); no action is pending (log entry 2). -/
def State.reset : State where
  cmd := 0
  width := 0
  height := 0
  layers := 0
  mips := 0
  tlayer := 0xFFFFFFFF
  inlen := 0
  code := 0
  status := 0
  outlen := 0
  rvariant := 0
  rwidth := 0
  rheight := 0
  rlayers := 0
  rmips := 0
  rcode := 0
  ibuf := []
  obuf := []
  cfg := .defaults
  pending := []
  returned := []
  draws := 0

end Sys2Proof.Machine
end

