-- ==== Sys2Proof/Machine/Flags.lean ====
section
/-! DEFINITION. The status register: its fields, its values after a success and after an exception, and the exception
codes (10_state.md R13, R14; 60_exceptions.md R141, R150). -/

namespace Sys2Proof.Machine

/-- The code of an exception: the value of `STATUS.ERR` (R141). -/
def Exc.code : Exc → BitVec 4
  | .unsupportedFormat => 1
  | .mipCountExceedsCapacity => 2
  | .illegalCommand => 3
  | .operandFault => 4
  | .lengthFault => 5
  | .layerRangeFault => 6
  | .fieldOverflow => 7
  | .capacityFault => 8
  | .headerFault => 9
  | .delegateFault => 10

/-- `STATUS.STATE` values (R13). -/
def stateIdle : BitVec 2 := 0
/-- `STATE` after a success (R13). -/
def stateDone : BitVec 2 := 1
/-- `STATE` after an exception (R13). -/
def stateError : BitVec 2 := 2

/-- `STATUS.STATE`, bits 1:0 (R13). -/
def statusState (w : Word) : BitVec 2 := w.extractLsb' 0 2

/-- `STATUS.ERR`, bits 7:4 (R13). -/
def statusErr (w : Word) : BitVec 4 := w.extractLsb' 4 4

/-- `STATUS.STICKY`, bit 8 (R13). -/
def statusSticky (w : Word) : Bool := w.getLsbD 8

/-- The status word of its three fields; bits 3:2 and 31:9 read as zero (R13). -/
def packStatus (sticky : Bool) (err : BitVec 4) (state : BitVec 2) : Word :=
  (0 : BitVec 23) ++ BitVec.ofBool sticky ++ err ++ (0 : BitVec 2) ++ state

/-- A success writes `STATE` and `ERR` and leaves `STICKY` (R14, R75 and every operation's last line). -/
def statusAfterDone (old : Word) : Word := packStatus (statusSticky old) 0 stateDone

/-- An exception writes `STATE`, `ERR` and sets `STICKY` (R150). -/
def statusAfterError (e : Exc) : Word := packStatus true e.code stateError

end Sys2Proof.Machine
end

