-- ==== Sys2Proof/Machine/Operands.lean ====
section
/-! DEFINITION. How an operation reads its operands (30_encoding.md R50, 10_state.md R15) and the byte-order and
bit-field helpers of 00_scope.md R9 and 20_memory.md R32, R34. -/

namespace Sys2Proof.Machine

/-- `sint32(w)`: the word as a two's-complement integer (R9). -/
def sint32 (w : Word) : Int := w.toInt

/-- `uint32(w)` (R9). -/
def uint32 (w : Word) : Nat := w.toNat

/-- `norm(n)`: layer-count normalisation (R15). -/
def norm (n : Int) : Nat := if n ≤ 0 then 1 else n.toNat

/-- The operand `width` (R50). -/
def State.widthOp (s : State) : Int := sint32 s.width

/-- The operand `height` (R50). -/
def State.heightOp (s : State) : Int := sint32 s.height

/-- The operand `mipCount`, or the requested level count (R50). -/
def State.mipsOp (s : State) : Int := sint32 s.mips

/-- The operand `targetLayer` (R50). -/
def State.targetLayer (s : State) : Int := sint32 s.tlayer

/-- The normalised operand `layerCount` (R15, R50). -/
def State.layerCount (s : State) : Nat := norm (sint32 s.layers)

/-- The number of valid input bytes (R50). -/
def State.inputLength (s : State) : Nat := uint32 s.inlen

/-- A 16-bit word from its bytes in memory order, little-endian (R34). -/
def half16 (b0 b1 : Byte) : Half := b1 ++ b0

/-- A 32-bit word from its bytes in memory order, little-endian (R32). -/
def word32 (b0 b1 b2 b3 : Byte) : Word := b3 ++ b2 ++ b1 ++ b0

/-- `le32(v)`: the bytes of a 32-bit word in memory order (R9, R32). -/
def le32 (w : Word) : List Byte :=
  [w.extractLsb' 0 8, w.extractLsb' 8 8, w.extractLsb' 16 8, w.extractLsb' 24 8]

/-- `n` zero bytes. -/
def zeroBytes (n : Nat) : List Byte := List.replicate n 0

/-- The byte sequence read as consecutive 16-bit words; a last odd byte belongs to none (R34). -/
def halves : List Byte → List Half
  | b0 :: b1 :: rest => half16 b0 b1 :: halves rest
  | _ => []

end Sys2Proof.Machine
end

