-- ==== Sys2Proof/Machine/Ops.lean ====
section
/-! DEFINITION. The named operations over registers and buffers, the end of a successful operation, and taking an
exception. Nothing is returned from: after an exception the block is ready for the next command (60_exceptions.md R155). -/

namespace Sys2Proof.Machine

/-! ### Buffers -/

/-- The value listed at an index, if there is one. -/
def Memory.byte? : Memory → Nat → Option Byte
  | [], _ => none
  | (k, b) :: m, a => if k = a then some b else Memory.byte? m a

/-- Write one byte, keeping the indices strictly rising. -/
def Memory.put : Memory → Nat → Byte → Memory
  | [], a, b => [(a, b)]
  | (k, c) :: m, a, b =>
    if a < k then (a, b) :: (k, c) :: m
    else if a = k then (a, b) :: m
    else (k, c) :: Memory.put m a b

/-- The buffer that holds exactly the given bytes, from an index upward. -/
def Memory.ofBytes : Nat → List Byte → Memory
  | _, [] => []
  | a, b :: bs => (a, b) :: Memory.ofBytes (a + 1) bs

/-- Whether a length or an index's successor exceeds a capacity (R6: a capacity may be unbounded). -/
def exceeds (n : Nat) : Option Nat → Bool
  | none => false
  | some cap => cap < n

/-- One `IBUF` byte as an operation reads it: the value the host wrote last, or a draw where it wrote none
(20_memory.md R41, 10_state.md R26; log entries 4, 10). -/
def State.ibufByte (s : State) (a : Nat) : Byte :=
  (s.ibuf.byte? a).getD (Config.freeIbufByte s.draws a)

/-- `MemRead(addr, n)` (00_scope.md R9, 20_memory.md R40). -/
def State.memRead (s : State) (addr n : Nat) : List Byte :=
  (List.range' addr n).map s.ibufByte

/-- `u32(addr)` (R9, R32). -/
def State.u32 (s : State) (addr : Nat) : Word :=
  word32 (s.ibufByte addr) (s.ibufByte (addr + 1)) (s.ibufByte (addr + 2)) (s.ibufByte (addr + 3))

/-! ### Registers -/

/-- The number of a register (R11). -/
def regNumber : Reg → Nat
  | .cmd => 0
  | .width => 1
  | .height => 2
  | .layers => 3
  | .mips => 4
  | .tlayer => 5
  | .inlen => 6
  | .code => 7
  | .status => 8
  | .outlen => 9
  | .rvariant => 10
  | .rwidth => 11
  | .rheight => 12
  | .rlayers => 13
  | .rmips => 14
  | .rcode => 15

/-- A read of a register (R9, R11). -/
def State.reg (s : State) : Reg → Word
  | .cmd => s.cmd
  | .width => s.width
  | .height => s.height
  | .layers => s.layers
  | .mips => s.mips
  | .tlayer => s.tlayer
  | .inlen => s.inlen
  | .code => s.code
  | .status => s.status
  | .outlen => s.outlen
  | .rvariant => s.rvariant
  | .rwidth => s.rwidth
  | .rheight => s.rheight
  | .rlayers => s.rlayers
  | .rmips => s.rmips
  | .rcode => s.rcode

/-- What a host write does to the registers themselves: registers 0 to 7 take the word, a write to 8 to 15 is ignored
(R11, 20_memory.md R39). The operation that a write to `CMD` starts is not here. -/
def State.hostSet (s : State) (r : Reg) (w : Word) : State :=
  match r with
  | .cmd => { s with cmd := w }
  | .width => { s with width := w }
  | .height => { s with height := w }
  | .layers => { s with layers := w }
  | .mips => { s with mips := w }
  | .tlayer => { s with tlayer := w }
  | .inlen => { s with inlen := w }
  | .code => { s with code := w }
  | .status | .outlen | .rvariant | .rwidth | .rheight | .rlayers | .rmips | .rcode => s

/-! ### The end of an operation -/

/-- `raise E`: the exception entry of 60_exceptions.md R150, applied to the state the operation began in. Every `OBUF`
byte becomes unspecified; each of the six result registers takes a free value that stays until it is next written. -/
def State.raise (s : State) (e : Exc) : State :=
  { s with
    status := statusAfterError e
    outlen := 0
    obuf := []
    rvariant := Config.freeResult s.draws (regNumber .rvariant)
    rwidth := Config.freeResult s.draws (regNumber .rwidth)
    rheight := Config.freeResult s.draws (regNumber .rheight)
    rlayers := Config.freeResult s.draws (regNumber .rlayers)
    rmips := Config.freeResult s.draws (regNumber .rmips)
    rcode := Config.freeResult s.draws (regNumber .rcode)
    draws := s.draws + 1 }

/-- A success with output `out`: `OBUF` holds exactly `out`, `OUTLEN` its length, `STATUS` says `DONE` (10_state.md R20,
R25; the last lines of every operation's pseudocode). -/
def State.finish (s : State) (out : List Byte) : State :=
  { s with
    status := statusAfterDone s.status
    outlen := BitVec.ofNat 32 out.length
    obuf := Memory.ofBytes 0 out
    draws := s.draws + 1 }

/-- The end of an operation that produced `out`: `CAPACITY_FAULT` when it exceeds `CFG.OBUF_CAP` (20_memory.md R40), then
`FIELD_OVERFLOW` when its length does not fit `OUTLEN` (00_scope.md R8; DEDUCED, log entry 12), else the success. -/
def State.complete (s : State) (out : List Byte) : Except Exc State :=
  if exceeds out.length s.cfg.obufCap then .error .capacityFault
  else if 2 ^ 32 ≤ out.length then .error .fieldOverflow
  else .ok (s.finish out)

/-- The step of an operation begun in `s`: its success state, or the exception it raises, taken. Either way a next state
(60_exceptions.md R140, R150). -/
def settle (s : State) : Except Exc State → Host.Outcome State Fault Refusal
  | .ok t => .next t
  | .error e => .next (s.raise e)

end Sys2Proof.Machine
end

