-- ==== Sys2Proof/Machine/Catalog.lean ====
section
/-! DEFINITION. FormatCatalog: the variant metadata, the forward and reverse lookups, and the meanings of `CAT.FOURCC`,
`CAT.DXGI`, `CAT.VFOURCC`, `CAT.VDXGI` (40_catalog.md). -/

namespace Sys2Proof.Machine

/-- The format classes of the pitch table (R70). -/
inductive FormatClass
  | block4
  | block8
  | single8
  | packed16
  | bits32
  | bits64
  | bits128
  | none
  deriving DecidableEq, Repr

/-- The class of a variant (R70). -/
def formatClass : Variant → FormatClass
  | .dxt1 | .bc4 => .block4
  | .dxt3 | .dxt5 | .bc5 | .bc7 => .block8
  | .l8 | .a8 => .single8
  | .a4r4g4b4 | .a1r5g5b5 | .d16 => .packed16
  | .a8r8g8b8 | .x8r8g8b8 | .r32f | .g16r16f => .bits32
  | .g32r32f | .a16b16g16r16f => .bits64
  | .a32b32g32r32f => .bits128
  | .invalid => .none

/-- Block-compressed: the union of the two block classes (R70). -/
def isBlock (v : Variant) : Bool := formatClass v = .block4 || formatClass v = .block8

/-- The float variants (R70). -/
def isFloat : Variant → Bool
  | .r32f | .g16r16f | .g32r32f | .a16b16g16r16f | .a32b32g32r32f => true
  | .dxt1 | .dxt3 | .dxt5 | .bc4 | .bc5 | .bc7 | .a8r8g8b8 | .x8r8g8b8 | .a4r4g4b4 | .a1r5g5b5 | .l8 | .a8 | .d16
  | .invalid => false

/-- `bitsPerPixel` (R71). `INVALID` has none; the 0 here is read by no operation (log entry 16). -/
def bitsPerPixel : Variant → Nat
  | .dxt1 => 4
  | .dxt3 => 8
  | .dxt5 => 8
  | .bc4 => 4
  | .bc5 => 8
  | .bc7 => 8
  | .a8r8g8b8 => 32
  | .x8r8g8b8 => 32
  | .a4r4g4b4 => 16
  | .a1r5g5b5 => 16
  | .l8 => 8
  | .a8 => 8
  | .d16 => 16
  | .r32f => 32
  | .g16r16f => 32
  | .g32r32f => 64
  | .a16b16g16r16f => 64
  | .a32b32g32r32f => 128
  | .invalid => 0

/-- `minimumTileDimension`: "4 for block-compressed, 1 otherwise" (R71). `INVALID` has none (log entry 16). -/
def minTile : Variant → Nat
  | .dxt1 | .dxt3 | .dxt5 | .bc4 | .bc5 | .bc7 => 4
  | .a8r8g8b8 | .x8r8g8b8 | .a4r4g4b4 | .a1r5g5b5 | .l8 | .a8 | .d16
  | .r32f | .g16r16f | .g32r32f | .a16b16g16r16f | .a32b32g32r32f => 1
  | .invalid => 0

/-- `Bpp(v)`: bytes per pixel of a variant that is not block-compressed (R71, 30_encoding.md R52). -/
def bytesPerPixel (v : Variant) : Nat := bitsPerPixel v / 8

/-- `VariantOfFourCC`: no entry for code 0, else the variant that carries the code (R73). -/
def variantOfFourCC (cfg : Config) (c : Word) : Option Variant :=
  if c = 0 then none else Variant.real.find? fun v => (cfg.catalog.codes v).fourCC = c

/-- `VariantOfDxgi`: no entry for code 0, else the variant that carries the code (R73). -/
def variantOfDxgi (cfg : Config) (c : Word) : Option Variant :=
  if c = 0 then none else Variant.real.find? fun v => (cfg.catalog.codes v).dxgi = c

/-- A variant's code as a register value (30_encoding.md R47). -/
def variantWord (v : Variant) : Word := BitVec.ofNat 32 v.code

/-- `CAT.FOURCC` (R75). -/
def catFourcc (v : Variant) (s : State) : Except Exc State :=
  if v = .invalid then .error .unsupportedFormat
  else .ok { s.finish [] with rcode := (s.cfg.catalog.codes v).fourCC }

/-- `CAT.DXGI` (R76). -/
def catDxgi (v : Variant) (s : State) : Except Exc State :=
  if v = .invalid then .error .unsupportedFormat
  else .ok { s.finish [] with rcode := (s.cfg.catalog.codes v).dxgi }

/-- `CAT.VFOURCC` (R77). -/
def catVfourcc (s : State) : Except Exc State :=
  match variantOfFourCC s.cfg s.code with
  | none => .error .unsupportedFormat
  | some v => .ok { s.finish [] with rvariant := variantWord v }

/-- `CAT.VDXGI` (R78). -/
def catVdxgi (s : State) : Except Exc State :=
  match variantOfDxgi s.cfg s.code with
  | none => .error .unsupportedFormat
  | some v => .ok { s.finish [] with rvariant := variantWord v }

/-- `CAT.FOURCC.DXT1` (40_catalog.md R75). -/
def execCatFourccDXT1 (s : State) : Host.Outcome State Fault Refusal :=
  settle s (catFourcc .dxt1 s)

/-- `CAT.FOURCC.DXT3` (40_catalog.md R75). -/
def execCatFourccDXT3 (s : State) : Host.Outcome State Fault Refusal :=
  settle s (catFourcc .dxt3 s)

/-- `CAT.FOURCC.DXT5` (40_catalog.md R75). -/
def execCatFourccDXT5 (s : State) : Host.Outcome State Fault Refusal :=
  settle s (catFourcc .dxt5 s)

/-- `CAT.FOURCC.BC4` (40_catalog.md R75). -/
def execCatFourccBC4 (s : State) : Host.Outcome State Fault Refusal :=
  settle s (catFourcc .bc4 s)

/-- `CAT.FOURCC.BC5` (40_catalog.md R75). -/
def execCatFourccBC5 (s : State) : Host.Outcome State Fault Refusal :=
  settle s (catFourcc .bc5 s)

/-- `CAT.FOURCC.BC7` (40_catalog.md R75). -/
def execCatFourccBC7 (s : State) : Host.Outcome State Fault Refusal :=
  settle s (catFourcc .bc7 s)

/-- `CAT.FOURCC.A8R8G8B8` (40_catalog.md R75). -/
def execCatFourccA8R8G8B8 (s : State) : Host.Outcome State Fault Refusal :=
  settle s (catFourcc .a8r8g8b8 s)

/-- `CAT.FOURCC.X8R8G8B8` (40_catalog.md R75). -/
def execCatFourccX8R8G8B8 (s : State) : Host.Outcome State Fault Refusal :=
  settle s (catFourcc .x8r8g8b8 s)

/-- `CAT.FOURCC.A4R4G4B4` (40_catalog.md R75). -/
def execCatFourccA4R4G4B4 (s : State) : Host.Outcome State Fault Refusal :=
  settle s (catFourcc .a4r4g4b4 s)

/-- `CAT.FOURCC.A1R5G5B5` (40_catalog.md R75). -/
def execCatFourccA1R5G5B5 (s : State) : Host.Outcome State Fault Refusal :=
  settle s (catFourcc .a1r5g5b5 s)

/-- `CAT.FOURCC.L8` (40_catalog.md R75). -/
def execCatFourccL8 (s : State) : Host.Outcome State Fault Refusal :=
  settle s (catFourcc .l8 s)

/-- `CAT.FOURCC.A8` (40_catalog.md R75). -/
def execCatFourccA8 (s : State) : Host.Outcome State Fault Refusal :=
  settle s (catFourcc .a8 s)

/-- `CAT.FOURCC.D16` (40_catalog.md R75). -/
def execCatFourccD16 (s : State) : Host.Outcome State Fault Refusal :=
  settle s (catFourcc .d16 s)

/-- `CAT.FOURCC.R32F` (40_catalog.md R75). -/
def execCatFourccR32F (s : State) : Host.Outcome State Fault Refusal :=
  settle s (catFourcc .r32f s)

/-- `CAT.FOURCC.G16R16F` (40_catalog.md R75). -/
def execCatFourccG16R16F (s : State) : Host.Outcome State Fault Refusal :=
  settle s (catFourcc .g16r16f s)

/-- `CAT.FOURCC.G32R32F` (40_catalog.md R75). -/
def execCatFourccG32R32F (s : State) : Host.Outcome State Fault Refusal :=
  settle s (catFourcc .g32r32f s)

/-- `CAT.FOURCC.A16B16G16R16F` (40_catalog.md R75). -/
def execCatFourccA16B16G16R16F (s : State) : Host.Outcome State Fault Refusal :=
  settle s (catFourcc .a16b16g16r16f s)

/-- `CAT.FOURCC.A32B32G32R32F` (40_catalog.md R75). -/
def execCatFourccA32B32G32R32F (s : State) : Host.Outcome State Fault Refusal :=
  settle s (catFourcc .a32b32g32r32f s)

/-- `CAT.FOURCC.INVALID` (40_catalog.md R75). -/
def execCatFourccINVALID (s : State) : Host.Outcome State Fault Refusal :=
  settle s (catFourcc .invalid s)

/-- `CAT.DXGI.DXT1` (40_catalog.md R76). -/
def execCatDxgiDXT1 (s : State) : Host.Outcome State Fault Refusal :=
  settle s (catDxgi .dxt1 s)

/-- `CAT.DXGI.DXT3` (40_catalog.md R76). -/
def execCatDxgiDXT3 (s : State) : Host.Outcome State Fault Refusal :=
  settle s (catDxgi .dxt3 s)

/-- `CAT.DXGI.DXT5` (40_catalog.md R76). -/
def execCatDxgiDXT5 (s : State) : Host.Outcome State Fault Refusal :=
  settle s (catDxgi .dxt5 s)

/-- `CAT.DXGI.BC4` (40_catalog.md R76). -/
def execCatDxgiBC4 (s : State) : Host.Outcome State Fault Refusal :=
  settle s (catDxgi .bc4 s)

/-- `CAT.DXGI.BC5` (40_catalog.md R76). -/
def execCatDxgiBC5 (s : State) : Host.Outcome State Fault Refusal :=
  settle s (catDxgi .bc5 s)

/-- `CAT.DXGI.BC7` (40_catalog.md R76). -/
def execCatDxgiBC7 (s : State) : Host.Outcome State Fault Refusal :=
  settle s (catDxgi .bc7 s)

/-- `CAT.DXGI.A8R8G8B8` (40_catalog.md R76). -/
def execCatDxgiA8R8G8B8 (s : State) : Host.Outcome State Fault Refusal :=
  settle s (catDxgi .a8r8g8b8 s)

/-- `CAT.DXGI.X8R8G8B8` (40_catalog.md R76). -/
def execCatDxgiX8R8G8B8 (s : State) : Host.Outcome State Fault Refusal :=
  settle s (catDxgi .x8r8g8b8 s)

/-- `CAT.DXGI.A4R4G4B4` (40_catalog.md R76). -/
def execCatDxgiA4R4G4B4 (s : State) : Host.Outcome State Fault Refusal :=
  settle s (catDxgi .a4r4g4b4 s)

/-- `CAT.DXGI.A1R5G5B5` (40_catalog.md R76). -/
def execCatDxgiA1R5G5B5 (s : State) : Host.Outcome State Fault Refusal :=
  settle s (catDxgi .a1r5g5b5 s)

/-- `CAT.DXGI.L8` (40_catalog.md R76). -/
def execCatDxgiL8 (s : State) : Host.Outcome State Fault Refusal :=
  settle s (catDxgi .l8 s)

/-- `CAT.DXGI.A8` (40_catalog.md R76). -/
def execCatDxgiA8 (s : State) : Host.Outcome State Fault Refusal :=
  settle s (catDxgi .a8 s)

/-- `CAT.DXGI.D16` (40_catalog.md R76). -/
def execCatDxgiD16 (s : State) : Host.Outcome State Fault Refusal :=
  settle s (catDxgi .d16 s)

/-- `CAT.DXGI.R32F` (40_catalog.md R76). -/
def execCatDxgiR32F (s : State) : Host.Outcome State Fault Refusal :=
  settle s (catDxgi .r32f s)

/-- `CAT.DXGI.G16R16F` (40_catalog.md R76). -/
def execCatDxgiG16R16F (s : State) : Host.Outcome State Fault Refusal :=
  settle s (catDxgi .g16r16f s)

/-- `CAT.DXGI.G32R32F` (40_catalog.md R76). -/
def execCatDxgiG32R32F (s : State) : Host.Outcome State Fault Refusal :=
  settle s (catDxgi .g32r32f s)

/-- `CAT.DXGI.A16B16G16R16F` (40_catalog.md R76). -/
def execCatDxgiA16B16G16R16F (s : State) : Host.Outcome State Fault Refusal :=
  settle s (catDxgi .a16b16g16r16f s)

/-- `CAT.DXGI.A32B32G32R32F` (40_catalog.md R76). -/
def execCatDxgiA32B32G32R32F (s : State) : Host.Outcome State Fault Refusal :=
  settle s (catDxgi .a32b32g32r32f s)

/-- `CAT.DXGI.INVALID` (40_catalog.md R76). -/
def execCatDxgiINVALID (s : State) : Host.Outcome State Fault Refusal :=
  settle s (catDxgi .invalid s)

/-- `CAT.VFOURCC` (40_catalog.md R77). -/
def execCatVfourcc (s : State) : Host.Outcome State Fault Refusal :=
  settle s (catVfourcc s)

/-- `CAT.VDXGI` (40_catalog.md R78). -/
def execCatVdxgi (s : State) : Host.Outcome State Fault Refusal :=
  settle s (catVdxgi s)

end Sys2Proof.Machine
end

