-- ==== Sys2Proof/Machine/Header.lean ====
section
/-! DEFINITION. HeaderBuilder: the container header, its pieces, and the meanings of `HDR.BUILD` and `HDR.PARSE`
(41_header.md; layout 30_encoding.md R55 to R58). -/

namespace Sys2Proof.Machine

/-- `magic` (00_scope.md R7). -/
def headerMagic : Word := 0x20534444
/-- `headerSize` (R7). -/
def headerSize : Word := 124
/-- `pixelFormat.size` (R7). -/
def pixelFormatSize : Word := 32
/-- `resourceDimension` of the extension block (R7). -/
def resourceDimension : Word := 3
/-- The header's length in bytes (R7, R51). -/
def headerLength : Nat := 128
/-- The length of a header with its extension block (R7, R51, R57). -/
def extendedLength : Nat := 148

/-- Pitch or linear size and its flag, by format class, on unbounded integers (R81). -/
def pitchRule (cfg : Config) (v : Variant) (w h : Nat) : Nat × Word :=
  match formatClass v with
  | .block4 => (h * w / 2, cfg.flagLinearSize)
  | .block8 => (h * w, cfg.flagLinearSize)
  | .single8 => (w, cfg.flagPitch)
  | .packed16 => (w * 2, cfg.flagPitch)
  | .bits32 => (w * 4, cfg.flagPitch)
  | .bits64 => (w * 8, cfg.flagPitch)
  | .bits128 => (w * 16, cfg.flagPitch)
  | .none => (0, 0)

/-- `useExt(v, L)` (R82). -/
def useExt (cfg : Config) (v : Variant) (layers : Nat) : Bool :=
  decide (1 < layers) || decide (v ∈ cfg.alwaysExt) || decide ((cfg.catalog.codes v).fourCC = 0)

/-- The sub-block of the formats whose masks are zero and whose FourCC flag alone is set (R85). -/
def fourCCOnly (cfg : Config) : PixelFormat := ⟨cfg.pfFourCC, 0, 0, 0, 0, 0⟩

/-- `PF(v)` (R85). The masks and bit counts of A8R8G8B8 and A1R5G5B5 are the source's (R7). -/
def pixelFormatOf (cfg : Config) : Variant → PixelFormat
  | .a8r8g8b8 => ⟨cfg.pf.a8r8g8b8Flags, 32, 0x00FF0000, 0x0000FF00, 0x000000FF, 0xFF000000⟩
  | .a1r5g5b5 => ⟨cfg.pf.a1r5g5b5Flags, 16, 0x7C00, 0x03E0, 0x001F, 0x8000⟩
  | .x8r8g8b8 => cfg.pf.x8r8g8b8
  | .a4r4g4b4 => cfg.pf.a4r4g4b4
  | .l8 => cfg.pf.l8
  | .a8 => cfg.pf.a8
  | .dxt1 | .dxt3 | .dxt5 | .bc4 | .bc5 | .bc7 | .d16
  | .r32f | .g16r16f | .g32r32f | .a16b16g16r16f | .a32b32g32r32f | .invalid => fourCCOnly cfg

/-- The fields of a container header that depend on operands or configuration: the source's transient `ContainerHeader`
(10_state.md R21; 30_encoding.md R55). -/
structure ContainerHeader where
  flags    : Word
  height   : Word
  width    : Word
  pitch    : Word
  mipCount : Word
  pf       : PixelFormat
  fourCC   : Word
  caps     : Word
  deriving DecidableEq, Repr

/-- The fields of the extension block that depend on operands or configuration (30_encoding.md R56). -/
structure ExtensionBlock where
  dxgiFormat : Word
  arraySize  : Word
  deriving DecidableEq, Repr

/-- The 128 header bytes (R55, R88, R89). -/
def ContainerHeader.bytes (h : ContainerHeader) : List Byte :=
  le32 headerMagic ++ le32 headerSize ++ le32 h.flags ++ le32 h.height ++ le32 h.width ++ le32 h.pitch ++ le32 0
    ++ le32 h.mipCount ++ zeroBytes 44 ++ le32 pixelFormatSize ++ le32 h.pf.flags ++ le32 h.fourCC ++ le32 h.pf.bitCount
    ++ le32 h.pf.rMask ++ le32 h.pf.gMask ++ le32 h.pf.bMask ++ le32 h.pf.aMask ++ le32 h.caps ++ zeroBytes 16

/-- The 20 extension bytes (R56, R88, R89). -/
def ExtensionBlock.bytes (x : ExtensionBlock) : List Byte :=
  le32 x.dxgiFormat ++ le32 resourceDimension ++ le32 0 ++ le32 x.arraySize ++ le32 0

/-- `caps` (R84). -/
def capsOf (cfg : Config) (mips : Int) : Word :=
  if 1 < mips then cfg.capsTexture ||| cfg.capsMipmap else cfg.capsTexture

/-- The bytes `HDR.BUILD` writes for the operands in `s` (R83 to R89). -/
def headerBytes (v : Variant) (s : State) : List Byte :=
  let ext := useExt s.cfg v s.layerCount
  let pitch := pitchRule s.cfg v s.widthOp.toNat s.heightOp.toNat
  let header : ContainerHeader := {
    flags := s.cfg.flagsBase ||| pitch.2
    height := s.height
    width := s.width
    pitch := BitVec.ofNat 32 pitch.1
    mipCount := s.mips
    pf := if ext && s.cfg.pfExtOverride then fourCCOnly s.cfg else pixelFormatOf s.cfg v
    fourCC := if ext then s.cfg.extSentinel else (s.cfg.catalog.codes v).fourCC
    caps := capsOf s.cfg s.mipsOp }
  let extension : ExtensionBlock := {
    dxgiFormat := (s.cfg.catalog.codes v).dxgi
    arraySize := BitVec.ofNat 32 s.layerCount }
  if ext then header.bytes ++ extension.bytes else header.bytes

/-- `HDR.BUILD` (R80 to R89), its conditions in the order R89 tests them. -/
def hdrBuild (v : Variant) (s : State) : Except Exc State :=
  let codes := s.cfg.catalog.codes v
  let pitch := (pitchRule s.cfg v s.widthOp.toNat s.heightOp.toNat).1
  if v = .invalid then .error .unsupportedFormat
  else if s.widthOp ≤ 0 ∨ s.heightOp ≤ 0 ∨ s.mipsOp < 1 then .error .operandFault
  else if codes.fourCC = 0 ∧ codes.dxgi = 0 then .error .unsupportedFormat
  else if useExt s.cfg v s.layerCount = true ∧ codes.dxgi = 0 then .error .unsupportedFormat
  else if 2 ^ 32 ≤ pitch then .error .fieldOverflow
  else do
    let t ← s.complete (headerBytes v s)
    .ok { t with rlayers := BitVec.ofNat 32 s.layerCount, rcode := BitVec.ofNat 32 pitch }

/-- The success state of `HDR.PARSE` (R92). -/
def parsed (s : State) (v : Variant) (layers hlen : Nat) : State :=
  { s.finish [] with
    rvariant := variantWord v
    rwidth := s.u32 16
    rheight := s.u32 12
    rlayers := BitVec.ofNat 32 layers
    rmips := s.u32 28
    rcode := BitVec.ofNat 32 hlen }

/-- `HDR.PARSE` (R91 to R93), its conditions in the order R92 tests them. -/
def hdrParse (s : State) : Except Exc State :=
  let n := s.inputLength
  if exceeds n s.cfg.ibufCap then .error .capacityFault
  else if n < headerLength then .error .lengthFault
  else if s.u32 0 ≠ headerMagic ∨ s.u32 4 ≠ headerSize ∨ s.u32 76 ≠ pixelFormatSize then .error .headerFault
  else if s.u32 84 = s.cfg.extSentinel then
    if n < extendedLength then .error .lengthFault
    else
      match variantOfDxgi s.cfg (s.u32 128) with
      | none => .error .unsupportedFormat
      | some v => .ok (parsed s v (norm (sint32 (s.u32 140))) extendedLength)
  else
    match variantOfFourCC s.cfg (s.u32 84) with
    | none => .error .unsupportedFormat
    | some v => .ok (parsed s v 1 headerLength)

/-- `HDR.BUILD.DXT1` (41_header.md R89). -/
def execHdrBuildDXT1 (s : State) : Host.Outcome State Fault Refusal :=
  settle s (hdrBuild .dxt1 s)

/-- `HDR.BUILD.DXT3` (41_header.md R89). -/
def execHdrBuildDXT3 (s : State) : Host.Outcome State Fault Refusal :=
  settle s (hdrBuild .dxt3 s)

/-- `HDR.BUILD.DXT5` (41_header.md R89). -/
def execHdrBuildDXT5 (s : State) : Host.Outcome State Fault Refusal :=
  settle s (hdrBuild .dxt5 s)

/-- `HDR.BUILD.BC4` (41_header.md R89). -/
def execHdrBuildBC4 (s : State) : Host.Outcome State Fault Refusal :=
  settle s (hdrBuild .bc4 s)

/-- `HDR.BUILD.BC5` (41_header.md R89). -/
def execHdrBuildBC5 (s : State) : Host.Outcome State Fault Refusal :=
  settle s (hdrBuild .bc5 s)

/-- `HDR.BUILD.BC7` (41_header.md R89). -/
def execHdrBuildBC7 (s : State) : Host.Outcome State Fault Refusal :=
  settle s (hdrBuild .bc7 s)

/-- `HDR.BUILD.A8R8G8B8` (41_header.md R89). -/
def execHdrBuildA8R8G8B8 (s : State) : Host.Outcome State Fault Refusal :=
  settle s (hdrBuild .a8r8g8b8 s)

/-- `HDR.BUILD.X8R8G8B8` (41_header.md R89). -/
def execHdrBuildX8R8G8B8 (s : State) : Host.Outcome State Fault Refusal :=
  settle s (hdrBuild .x8r8g8b8 s)

/-- `HDR.BUILD.A4R4G4B4` (41_header.md R89). -/
def execHdrBuildA4R4G4B4 (s : State) : Host.Outcome State Fault Refusal :=
  settle s (hdrBuild .a4r4g4b4 s)

/-- `HDR.BUILD.A1R5G5B5` (41_header.md R89). -/
def execHdrBuildA1R5G5B5 (s : State) : Host.Outcome State Fault Refusal :=
  settle s (hdrBuild .a1r5g5b5 s)

/-- `HDR.BUILD.L8` (41_header.md R89). -/
def execHdrBuildL8 (s : State) : Host.Outcome State Fault Refusal :=
  settle s (hdrBuild .l8 s)

/-- `HDR.BUILD.A8` (41_header.md R89). -/
def execHdrBuildA8 (s : State) : Host.Outcome State Fault Refusal :=
  settle s (hdrBuild .a8 s)

/-- `HDR.BUILD.D16` (41_header.md R89). -/
def execHdrBuildD16 (s : State) : Host.Outcome State Fault Refusal :=
  settle s (hdrBuild .d16 s)

/-- `HDR.BUILD.R32F` (41_header.md R89). -/
def execHdrBuildR32F (s : State) : Host.Outcome State Fault Refusal :=
  settle s (hdrBuild .r32f s)

/-- `HDR.BUILD.G16R16F` (41_header.md R89). -/
def execHdrBuildG16R16F (s : State) : Host.Outcome State Fault Refusal :=
  settle s (hdrBuild .g16r16f s)

/-- `HDR.BUILD.G32R32F` (41_header.md R89). -/
def execHdrBuildG32R32F (s : State) : Host.Outcome State Fault Refusal :=
  settle s (hdrBuild .g32r32f s)

/-- `HDR.BUILD.A16B16G16R16F` (41_header.md R89). -/
def execHdrBuildA16B16G16R16F (s : State) : Host.Outcome State Fault Refusal :=
  settle s (hdrBuild .a16b16g16r16f s)

/-- `HDR.BUILD.A32B32G32R32F` (41_header.md R89). -/
def execHdrBuildA32B32G32R32F (s : State) : Host.Outcome State Fault Refusal :=
  settle s (hdrBuild .a32b32g32r32f s)

/-- `HDR.BUILD.INVALID` (41_header.md R89). -/
def execHdrBuildINVALID (s : State) : Host.Outcome State Fault Refusal :=
  settle s (hdrBuild .invalid s)

/-- `HDR.PARSE` (41_header.md R92). -/
def execHdrParse (s : State) : Host.Outcome State Fault Refusal :=
  settle s (hdrParse s)

end Sys2Proof.Machine
end

