-- ==== Sys2Proof/Machine/Mip.lean ====
section
/-! DEFINITION. MipPyramid: the level sequence, and the meanings of `MIP.SIZES` and `MIP.TAKE` (42_mip.md). -/

namespace Sys2Proof.Machine

/-- One level of the source's data model, "{width, height, byteLength}" (42_mip.md R100, 90_conflicts.md C8). -/
structure MipLevel where
  width      : Nat
  height     : Nat
  byteLength : Nat
  deriving DecidableEq, Repr

/-- The byte length of a level (R100). -/
def levelSize (v : Variant) (w h : Nat) : Nat := max (minTile v) w * max (minTile v) h * bitsPerPixel v / 8

/-- The loop of R100, with fuel: each pass halves both dimensions, rounding down, to no less than 1. -/
def levelLoop (v : Variant) : Nat → Nat → Nat → List MipLevel
  | 0, _, _ => []
  | fuel + 1, w, h =>
    ⟨w, h, levelSize v w h⟩ ::
      (if w = 1 ∧ h = 1 then [] else levelLoop v fuel (max 1 (w / 2)) (max 1 (h / 2)))

/-- The levels of a pyramid, finest first (R100). The larger dimension is fuel enough (R101). -/
def mipLevels (v : Variant) (w h : Nat) : List MipLevel := levelLoop v (max w h) w h

/-- `Levels(v, W, H)`: the byte lengths only (R100, 90_conflicts.md C8). -/
def levelSizes (v : Variant) (w h : Nat) : List Nat := (mipLevels v w h).map MipLevel.byteLength

/-- `depth(W, H)`: the length of the sequence (R101). -/
def pyramidDepth (v : Variant) (w h : Nat) : Nat := (levelSizes v w h).length

/-- Level sizes as consecutive 32-bit little-endian words (30_encoding.md R62). -/
def sizeWords (sizes : List Nat) : List Byte := sizes.flatMap fun n => le32 (BitVec.ofNat 32 n)

/-- `MIP.SIZES` (R102). -/
def mipSizes (v : Variant) (s : State) : Except Exc State :=
  let sizes := levelSizes v s.widthOp.toNat s.heightOp.toNat
  if v = .invalid then .error .unsupportedFormat
  else if s.widthOp ≤ 0 ∨ s.heightOp ≤ 0 then .error .operandFault
  else if 2 ^ 32 ≤ sizes.headD 0 then .error .fieldOverflow
  else do
    let t ← s.complete (sizeWords sizes)
    .ok { t with rmips := BitVec.ofNat 32 sizes.length }

/-- `MIP.TAKE` (R103). -/
def mipTake (v : Variant) (s : State) : Except Exc State :=
  let sizes := levelSizes v s.widthOp.toNat s.heightOp.toNat
  if v = .invalid then .error .unsupportedFormat
  else if s.widthOp ≤ 0 ∨ s.heightOp ≤ 0 ∨ s.mipsOp < 1 then .error .operandFault
  else if sizes.length < s.mipsOp.toNat then .error .mipCountExceedsCapacity
  else if 2 ^ 32 ≤ sizes.headD 0 then .error .fieldOverflow
  else do
    let t ← s.complete (sizeWords (sizes.take s.mipsOp.toNat))
    .ok { t with rmips := BitVec.ofNat 32 sizes.length }

/-- `MIP.SIZES.DXT1` (42_mip.md R102). -/
def execMipSizesDXT1 (s : State) : Host.Outcome State Fault Refusal :=
  settle s (mipSizes .dxt1 s)

/-- `MIP.SIZES.DXT3` (42_mip.md R102). -/
def execMipSizesDXT3 (s : State) : Host.Outcome State Fault Refusal :=
  settle s (mipSizes .dxt3 s)

/-- `MIP.SIZES.DXT5` (42_mip.md R102). -/
def execMipSizesDXT5 (s : State) : Host.Outcome State Fault Refusal :=
  settle s (mipSizes .dxt5 s)

/-- `MIP.SIZES.BC4` (42_mip.md R102). -/
def execMipSizesBC4 (s : State) : Host.Outcome State Fault Refusal :=
  settle s (mipSizes .bc4 s)

/-- `MIP.SIZES.BC5` (42_mip.md R102). -/
def execMipSizesBC5 (s : State) : Host.Outcome State Fault Refusal :=
  settle s (mipSizes .bc5 s)

/-- `MIP.SIZES.BC7` (42_mip.md R102). -/
def execMipSizesBC7 (s : State) : Host.Outcome State Fault Refusal :=
  settle s (mipSizes .bc7 s)

/-- `MIP.SIZES.A8R8G8B8` (42_mip.md R102). -/
def execMipSizesA8R8G8B8 (s : State) : Host.Outcome State Fault Refusal :=
  settle s (mipSizes .a8r8g8b8 s)

/-- `MIP.SIZES.X8R8G8B8` (42_mip.md R102). -/
def execMipSizesX8R8G8B8 (s : State) : Host.Outcome State Fault Refusal :=
  settle s (mipSizes .x8r8g8b8 s)

/-- `MIP.SIZES.A4R4G4B4` (42_mip.md R102). -/
def execMipSizesA4R4G4B4 (s : State) : Host.Outcome State Fault Refusal :=
  settle s (mipSizes .a4r4g4b4 s)

/-- `MIP.SIZES.A1R5G5B5` (42_mip.md R102). -/
def execMipSizesA1R5G5B5 (s : State) : Host.Outcome State Fault Refusal :=
  settle s (mipSizes .a1r5g5b5 s)

/-- `MIP.SIZES.L8` (42_mip.md R102). -/
def execMipSizesL8 (s : State) : Host.Outcome State Fault Refusal :=
  settle s (mipSizes .l8 s)

/-- `MIP.SIZES.A8` (42_mip.md R102). -/
def execMipSizesA8 (s : State) : Host.Outcome State Fault Refusal :=
  settle s (mipSizes .a8 s)

/-- `MIP.SIZES.D16` (42_mip.md R102). -/
def execMipSizesD16 (s : State) : Host.Outcome State Fault Refusal :=
  settle s (mipSizes .d16 s)

/-- `MIP.SIZES.R32F` (42_mip.md R102). -/
def execMipSizesR32F (s : State) : Host.Outcome State Fault Refusal :=
  settle s (mipSizes .r32f s)

/-- `MIP.SIZES.G16R16F` (42_mip.md R102). -/
def execMipSizesG16R16F (s : State) : Host.Outcome State Fault Refusal :=
  settle s (mipSizes .g16r16f s)

/-- `MIP.SIZES.G32R32F` (42_mip.md R102). -/
def execMipSizesG32R32F (s : State) : Host.Outcome State Fault Refusal :=
  settle s (mipSizes .g32r32f s)

/-- `MIP.SIZES.A16B16G16R16F` (42_mip.md R102). -/
def execMipSizesA16B16G16R16F (s : State) : Host.Outcome State Fault Refusal :=
  settle s (mipSizes .a16b16g16r16f s)

/-- `MIP.SIZES.A32B32G32R32F` (42_mip.md R102). -/
def execMipSizesA32B32G32R32F (s : State) : Host.Outcome State Fault Refusal :=
  settle s (mipSizes .a32b32g32r32f s)

/-- `MIP.SIZES.INVALID` (42_mip.md R102). -/
def execMipSizesINVALID (s : State) : Host.Outcome State Fault Refusal :=
  settle s (mipSizes .invalid s)

/-- `MIP.TAKE.DXT1` (42_mip.md R103). -/
def execMipTakeDXT1 (s : State) : Host.Outcome State Fault Refusal :=
  settle s (mipTake .dxt1 s)

/-- `MIP.TAKE.DXT3` (42_mip.md R103). -/
def execMipTakeDXT3 (s : State) : Host.Outcome State Fault Refusal :=
  settle s (mipTake .dxt3 s)

/-- `MIP.TAKE.DXT5` (42_mip.md R103). -/
def execMipTakeDXT5 (s : State) : Host.Outcome State Fault Refusal :=
  settle s (mipTake .dxt5 s)

/-- `MIP.TAKE.BC4` (42_mip.md R103). -/
def execMipTakeBC4 (s : State) : Host.Outcome State Fault Refusal :=
  settle s (mipTake .bc4 s)

/-- `MIP.TAKE.BC5` (42_mip.md R103). -/
def execMipTakeBC5 (s : State) : Host.Outcome State Fault Refusal :=
  settle s (mipTake .bc5 s)

/-- `MIP.TAKE.BC7` (42_mip.md R103). -/
def execMipTakeBC7 (s : State) : Host.Outcome State Fault Refusal :=
  settle s (mipTake .bc7 s)

/-- `MIP.TAKE.A8R8G8B8` (42_mip.md R103). -/
def execMipTakeA8R8G8B8 (s : State) : Host.Outcome State Fault Refusal :=
  settle s (mipTake .a8r8g8b8 s)

/-- `MIP.TAKE.X8R8G8B8` (42_mip.md R103). -/
def execMipTakeX8R8G8B8 (s : State) : Host.Outcome State Fault Refusal :=
  settle s (mipTake .x8r8g8b8 s)

/-- `MIP.TAKE.A4R4G4B4` (42_mip.md R103). -/
def execMipTakeA4R4G4B4 (s : State) : Host.Outcome State Fault Refusal :=
  settle s (mipTake .a4r4g4b4 s)

/-- `MIP.TAKE.A1R5G5B5` (42_mip.md R103). -/
def execMipTakeA1R5G5B5 (s : State) : Host.Outcome State Fault Refusal :=
  settle s (mipTake .a1r5g5b5 s)

/-- `MIP.TAKE.L8` (42_mip.md R103). -/
def execMipTakeL8 (s : State) : Host.Outcome State Fault Refusal :=
  settle s (mipTake .l8 s)

/-- `MIP.TAKE.A8` (42_mip.md R103). -/
def execMipTakeA8 (s : State) : Host.Outcome State Fault Refusal :=
  settle s (mipTake .a8 s)

/-- `MIP.TAKE.D16` (42_mip.md R103). -/
def execMipTakeD16 (s : State) : Host.Outcome State Fault Refusal :=
  settle s (mipTake .d16 s)

/-- `MIP.TAKE.R32F` (42_mip.md R103). -/
def execMipTakeR32F (s : State) : Host.Outcome State Fault Refusal :=
  settle s (mipTake .r32f s)

/-- `MIP.TAKE.G16R16F` (42_mip.md R103). -/
def execMipTakeG16R16F (s : State) : Host.Outcome State Fault Refusal :=
  settle s (mipTake .g16r16f s)

/-- `MIP.TAKE.G32R32F` (42_mip.md R103). -/
def execMipTakeG32R32F (s : State) : Host.Outcome State Fault Refusal :=
  settle s (mipTake .g32r32f s)

/-- `MIP.TAKE.A16B16G16R16F` (42_mip.md R103). -/
def execMipTakeA16B16G16R16F (s : State) : Host.Outcome State Fault Refusal :=
  settle s (mipTake .a16b16g16r16f s)

/-- `MIP.TAKE.A32B32G32R32F` (42_mip.md R103). -/
def execMipTakeA32B32G32R32F (s : State) : Host.Outcome State Fault Refusal :=
  settle s (mipTake .a32b32g32r32f s)

/-- `MIP.TAKE.INVALID` (42_mip.md R103). -/
def execMipTakeINVALID (s : State) : Host.Outcome State Fault Refusal :=
  settle s (mipTake .invalid s)

end Sys2Proof.Machine
end

