-- ==== Sys2Proof/Machine/PixDecode.lean ====
section
/-! DEFINITION. PixelCodec decode: the unpackers, the layer extraction, and the meanings of `PIX.DECODE`
(43_pixel_decode.md). -/

namespace Sys2Proof.Machine

/-- The four output bytes of a 5-5-5-1 pixel word, with the source's masks (R114, 90_conflicts.md C1). -/
def unpack5551 (p : Half) : List Byte :=
  [(((p &&& 0x7E00) >>> 10) * 8).setWidth 8,
   (((p &&& 0x03E0) >>> 5) * 8).setWidth 8,
   ((p &&& 0x001F) * 8).setWidth 8,
   (((p &&& 0x8000) >>> 15) * 255).setWidth 8]

/-- The four output bytes of a 4-4-4-4 pixel word, in the source's emission order (R115, 90_conflicts.md C2, C3). -/
def unpack4444 (k : NibbleScale) (p : Half) : List Byte :=
  [(((p &&& 0x0F00) >>> 8) * BitVec.ofNat 16 k.factor).setWidth 8,
   (((p &&& 0x00F0) >>> 4) * BitVec.ofNat 16 k.factor).setWidth 8,
   ((p &&& 0x000F) * BitVec.ofNat 16 k.factor).setWidth 8,
   (((p &&& 0xF000) >>> 12) * BitVec.ofNat 16 k.factor).setWidth 8]

/-- "expand byte v to (v,v,v,255)" (R116, R117). -/
def expandGrey (b : Byte) : List Byte := [b, b, b, 255]

/-- `Swap02`: byte-swap positions 0 and 2 of each 4-byte pixel (44_pixel_encode.md R139). Applied only to a length that
is a multiple of 4; what it gives a shorter tail is read by no operation. -/
def swap02 : List Byte → List Byte
  | b0 :: b1 :: b2 :: b3 :: rest => b2 :: b1 :: b0 :: b3 :: swap02 rest
  | rest => rest

/-- The fields of a half-float (30_encoding.md R60). -/
def halfSign (h : Half) : Bool := h.getLsbD 15
/-- The biased exponent of a half-float (R60). -/
def halfExp (h : Half) : Nat := (h.extractLsb' 10 5).toNat
/-- The fraction of a half-float (R60). -/
def halfFrac (h : Half) : Nat := (h.extractLsb' 0 10).toNat

/-- A half-float that is not a number (R60). -/
def halfIsNan (h : Half) : Bool := halfExp h = 31 && halfFrac h != 0

/-- The significand of a half-float, in units of 2^-10 of its binade (R120). -/
def halfSignificand (h : Half) : Nat := if halfExp h = 0 then halfFrac h else 1024 + halfFrac h

/-- The power `q` with value = significand / 2^q, for an exponent below 15 (R120). -/
def halfShift (h : Half) : Nat := 25 - max (halfExp h) 1

/-- `H2B(h)`: half-float to byte, with the draw for a NaN given (R120). -/
def halfToByte (nan : Byte) (h : Half) : Byte :=
  if halfIsNan h then nan
  else if halfSign h then 0
  else if 15 ≤ halfExp h then 255
  else BitVec.ofNat 8 ((255 * halfSignificand h + 2 ^ (halfShift h - 1)) / 2 ^ halfShift h)

/-- Stage 1 of A16B16G16R16F: each half-float in turn, a NaN at position `k` by its own draw (R119, R120). -/
def unpackHalves (draw : Nat) (input : List Byte) : List Byte :=
  (halves input).mapIdx fun k h => halfToByte (Config.freeNanByte draw k) h

/-- `CFG.BlockDecompress`: the answer the configuration writes down for these arguments, else the uninterpreted function
(R113; log entry 6). -/
def blockDecompress (cfg : Config) (input : List Byte) (w rows : Nat) (v : Variant) : Option (List Byte) :=
  match cfg.blockAnswers.find? fun a => a.input = input ∧ a.width = w ∧ a.rows = rows ∧ a.variant = v with
  | some a => a.answer
  | none => Config.freeBlock input w rows v

/-- Stage 1 of the block-compressed variants (R113). -/
def delegate (cfg : Config) (input : List Byte) (w h layers : Nat) (v : Variant) : Except Exc (List Byte) :=
  match blockDecompress cfg input w (h * layers) v with
  | none => .error .delegateFault
  | some r => if r.length ≠ w * (h * layers) * 4 then .error .delegateFault else .ok r

/-- The six variants whose stage 1 transforms pixels: their input length must be `W·H·L·Bpp` exactly (R111). -/
def hasLengthRule : Variant → Bool
  | .a1r5g5b5 | .a4r4g4b4 | .l8 | .a8 | .a16b16g16r16f | .a8r8g8b8 => true
  | .dxt1 | .dxt3 | .dxt5 | .bc4 | .bc5 | .bc7 | .x8r8g8b8 | .d16
  | .r32f | .g16r16f | .g32r32f | .a32b32g32r32f | .invalid => false

/-- The transform of stage 1, after the length rule: `in`, `W`, `H`, `L` (R113 to R133). -/
def stage1 (cfg : Config) (draw : Nat) (input : List Byte) (w h layers : Nat) (v : Variant) :
    Except Exc (List Byte) :=
  match v with
  | .dxt1 => delegate cfg input w h layers .dxt1
  | .dxt3 => delegate cfg input w h layers .dxt3
  | .dxt5 => delegate cfg input w h layers .dxt5
  | .bc4 => delegate cfg input w h layers .bc4
  | .bc5 => delegate cfg input w h layers .bc5
  | .bc7 => delegate cfg input w h layers .bc7
  | .a8r8g8b8 => .ok (swap02 input)
  | .x8r8g8b8 => .ok input
  | .a4r4g4b4 => .ok ((halves input).flatMap (unpack4444 cfg.nibbleScale))
  | .a1r5g5b5 => .ok ((halves input).flatMap unpack5551)
  | .l8 => .ok (input.flatMap expandGrey)
  | .a8 => .ok (input.flatMap expandGrey)
  | .d16 => .ok input
  | .r32f => .ok input
  | .g16r16f => .ok input
  | .g32r32f => .ok input
  | .a16b16g16r16f => .ok (unpackHalves draw input)
  | .a32b32g32r32f => .ok input
  | .invalid => .error .unsupportedFormat

/-- Stage 2: the optional layer extraction (R112). -/
def stage2 (out : List Byte) (layers : Nat) (target : Int) : Except Exc (List Byte) :=
  if target < 0 then .ok out
  else if (layers : Int) ≤ target then .error .layerRangeFault
  else
    let q := out.length / layers
    .ok ((out.drop (q * target.toNat)).take q)

/-- `PIX.DECODE` (R110): the conditions in its order; the length rule R111 is the first test of a transforming stage 1. -/
def pixDecode (v : Variant) (s : State) : Except Exc State :=
  let w := s.widthOp.toNat
  let h := s.heightOp.toNat
  let layers := s.layerCount
  let n := s.inputLength
  if v = .invalid then .error .unsupportedFormat
  else if s.widthOp ≤ 0 ∨ s.heightOp ≤ 0 then .error .operandFault
  else if exceeds n s.cfg.ibufCap then .error .capacityFault
  else if hasLengthRule v = true ∧ n ≠ w * h * layers * bytesPerPixel v then .error .lengthFault
  else do
    let out1 ← stage1 s.cfg s.draws (s.memRead 0 n) w h layers v
    let out ← stage2 out1 layers s.targetLayer
    s.complete out

/-- `PIX.DECODE.DXT1` (43_pixel_decode.md R127). -/
def execPixDecodeDXT1 (s : State) : Host.Outcome State Fault Refusal :=
  settle s (pixDecode .dxt1 s)

/-- `PIX.DECODE.DXT3` (43_pixel_decode.md R128). -/
def execPixDecodeDXT3 (s : State) : Host.Outcome State Fault Refusal :=
  settle s (pixDecode .dxt3 s)

/-- `PIX.DECODE.DXT5` (43_pixel_decode.md R129). -/
def execPixDecodeDXT5 (s : State) : Host.Outcome State Fault Refusal :=
  settle s (pixDecode .dxt5 s)

/-- `PIX.DECODE.BC4` (43_pixel_decode.md R130). -/
def execPixDecodeBC4 (s : State) : Host.Outcome State Fault Refusal :=
  settle s (pixDecode .bc4 s)

/-- `PIX.DECODE.BC5` (43_pixel_decode.md R131). -/
def execPixDecodeBC5 (s : State) : Host.Outcome State Fault Refusal :=
  settle s (pixDecode .bc5 s)

/-- `PIX.DECODE.BC7` (43_pixel_decode.md R132). -/
def execPixDecodeBC7 (s : State) : Host.Outcome State Fault Refusal :=
  settle s (pixDecode .bc7 s)

/-- `PIX.DECODE.A8R8G8B8` (43_pixel_decode.md R118). -/
def execPixDecodeA8R8G8B8 (s : State) : Host.Outcome State Fault Refusal :=
  settle s (pixDecode .a8r8g8b8 s)

/-- `PIX.DECODE.X8R8G8B8` (43_pixel_decode.md R121). -/
def execPixDecodeX8R8G8B8 (s : State) : Host.Outcome State Fault Refusal :=
  settle s (pixDecode .x8r8g8b8 s)

/-- `PIX.DECODE.A4R4G4B4` (43_pixel_decode.md R115). -/
def execPixDecodeA4R4G4B4 (s : State) : Host.Outcome State Fault Refusal :=
  settle s (pixDecode .a4r4g4b4 s)

/-- `PIX.DECODE.A1R5G5B5` (43_pixel_decode.md R114). -/
def execPixDecodeA1R5G5B5 (s : State) : Host.Outcome State Fault Refusal :=
  settle s (pixDecode .a1r5g5b5 s)

/-- `PIX.DECODE.L8` (43_pixel_decode.md R116). -/
def execPixDecodeL8 (s : State) : Host.Outcome State Fault Refusal :=
  settle s (pixDecode .l8 s)

/-- `PIX.DECODE.A8` (43_pixel_decode.md R117). -/
def execPixDecodeA8 (s : State) : Host.Outcome State Fault Refusal :=
  settle s (pixDecode .a8 s)

/-- `PIX.DECODE.D16` (43_pixel_decode.md R126). -/
def execPixDecodeD16 (s : State) : Host.Outcome State Fault Refusal :=
  settle s (pixDecode .d16 s)

/-- `PIX.DECODE.R32F` (43_pixel_decode.md R122). -/
def execPixDecodeR32F (s : State) : Host.Outcome State Fault Refusal :=
  settle s (pixDecode .r32f s)

/-- `PIX.DECODE.G16R16F` (43_pixel_decode.md R123). -/
def execPixDecodeG16R16F (s : State) : Host.Outcome State Fault Refusal :=
  settle s (pixDecode .g16r16f s)

/-- `PIX.DECODE.G32R32F` (43_pixel_decode.md R124). -/
def execPixDecodeG32R32F (s : State) : Host.Outcome State Fault Refusal :=
  settle s (pixDecode .g32r32f s)

/-- `PIX.DECODE.A16B16G16R16F` (43_pixel_decode.md R119). -/
def execPixDecodeA16B16G16R16F (s : State) : Host.Outcome State Fault Refusal :=
  settle s (pixDecode .a16b16g16r16f s)

/-- `PIX.DECODE.A32B32G32R32F` (43_pixel_decode.md R125). -/
def execPixDecodeA32B32G32R32F (s : State) : Host.Outcome State Fault Refusal :=
  settle s (pixDecode .a32b32g32r32f s)

/-- `PIX.DECODE.INVALID` (43_pixel_decode.md R133). -/
def execPixDecodeINVALID (s : State) : Host.Outcome State Fault Refusal :=
  settle s (pixDecode .invalid s)

end Sys2Proof.Machine
end

