-- ==== Sys2Proof/Machine/PixEncode.lean ====
section
/-! DEFINITION. PixelCodec encode: the meanings of `PIX.ENCODE` (44_pixel_encode.md). -/

namespace Sys2Proof.Machine

/-- The swap is due: A8R8G8B8 with more than one layer (R136). -/
def swapDue (v : Variant) (layers : Nat) : Bool := decide (v = .a8r8g8b8) && decide (1 < layers)

/-- `PIX.ENCODE` (R135 to R138), its conditions in the order R135 tests them. -/
def pixEncode (v : Variant) (s : State) : Except Exc State :=
  let n := s.inputLength
  let due := swapDue v s.layerCount
  if v = .invalid then .error .unsupportedFormat
  else if exceeds n s.cfg.ibufCap then .error .capacityFault
  else if due = true ∧ n % 4 ≠ 0 then .error .lengthFault
  else s.complete (if due then swap02 (s.memRead 0 n) else s.memRead 0 n)

/-- `PIX.ENCODE.DXT1` (44_pixel_encode.md R137). -/
def execPixEncodeDXT1 (s : State) : Host.Outcome State Fault Refusal :=
  settle s (pixEncode .dxt1 s)

/-- `PIX.ENCODE.DXT3` (44_pixel_encode.md R137). -/
def execPixEncodeDXT3 (s : State) : Host.Outcome State Fault Refusal :=
  settle s (pixEncode .dxt3 s)

/-- `PIX.ENCODE.DXT5` (44_pixel_encode.md R137). -/
def execPixEncodeDXT5 (s : State) : Host.Outcome State Fault Refusal :=
  settle s (pixEncode .dxt5 s)

/-- `PIX.ENCODE.BC4` (44_pixel_encode.md R137). -/
def execPixEncodeBC4 (s : State) : Host.Outcome State Fault Refusal :=
  settle s (pixEncode .bc4 s)

/-- `PIX.ENCODE.BC5` (44_pixel_encode.md R137). -/
def execPixEncodeBC5 (s : State) : Host.Outcome State Fault Refusal :=
  settle s (pixEncode .bc5 s)

/-- `PIX.ENCODE.BC7` (44_pixel_encode.md R137). -/
def execPixEncodeBC7 (s : State) : Host.Outcome State Fault Refusal :=
  settle s (pixEncode .bc7 s)

/-- `PIX.ENCODE.A8R8G8B8` (44_pixel_encode.md R136). -/
def execPixEncodeA8R8G8B8 (s : State) : Host.Outcome State Fault Refusal :=
  settle s (pixEncode .a8r8g8b8 s)

/-- `PIX.ENCODE.X8R8G8B8` (44_pixel_encode.md R137). -/
def execPixEncodeX8R8G8B8 (s : State) : Host.Outcome State Fault Refusal :=
  settle s (pixEncode .x8r8g8b8 s)

/-- `PIX.ENCODE.A4R4G4B4` (44_pixel_encode.md R137). -/
def execPixEncodeA4R4G4B4 (s : State) : Host.Outcome State Fault Refusal :=
  settle s (pixEncode .a4r4g4b4 s)

/-- `PIX.ENCODE.A1R5G5B5` (44_pixel_encode.md R137). -/
def execPixEncodeA1R5G5B5 (s : State) : Host.Outcome State Fault Refusal :=
  settle s (pixEncode .a1r5g5b5 s)

/-- `PIX.ENCODE.L8` (44_pixel_encode.md R137). -/
def execPixEncodeL8 (s : State) : Host.Outcome State Fault Refusal :=
  settle s (pixEncode .l8 s)

/-- `PIX.ENCODE.A8` (44_pixel_encode.md R137). -/
def execPixEncodeA8 (s : State) : Host.Outcome State Fault Refusal :=
  settle s (pixEncode .a8 s)

/-- `PIX.ENCODE.D16` (44_pixel_encode.md R137). -/
def execPixEncodeD16 (s : State) : Host.Outcome State Fault Refusal :=
  settle s (pixEncode .d16 s)

/-- `PIX.ENCODE.R32F` (44_pixel_encode.md R137). -/
def execPixEncodeR32F (s : State) : Host.Outcome State Fault Refusal :=
  settle s (pixEncode .r32f s)

/-- `PIX.ENCODE.G16R16F` (44_pixel_encode.md R137). -/
def execPixEncodeG16R16F (s : State) : Host.Outcome State Fault Refusal :=
  settle s (pixEncode .g16r16f s)

/-- `PIX.ENCODE.G32R32F` (44_pixel_encode.md R137). -/
def execPixEncodeG32R32F (s : State) : Host.Outcome State Fault Refusal :=
  settle s (pixEncode .g32r32f s)

/-- `PIX.ENCODE.A16B16G16R16F` (44_pixel_encode.md R137). -/
def execPixEncodeA16B16G16R16F (s : State) : Host.Outcome State Fault Refusal :=
  settle s (pixEncode .a16b16g16r16f s)

/-- `PIX.ENCODE.A32B32G32R32F` (44_pixel_encode.md R137). -/
def execPixEncodeA32B32G32R32F (s : State) : Host.Outcome State Fault Refusal :=
  settle s (pixEncode .a32b32g32r32f s)

/-- `PIX.ENCODE.INVALID` (44_pixel_encode.md R138). -/
def execPixEncodeINVALID (s : State) : Host.Outcome State Fault Refusal :=
  settle s (pixEncode .invalid s)

end Sys2Proof.Machine
end

