-- ==== Sys2Proof/Machine/Dispatch.lean ====
section
/-! DEFINITION. One arm per instruction, each one direct call of its meaning. -/

namespace Sys2Proof.Machine

def exec (i : Instr) (s : State) : Host.Outcome State Fault Refusal :=
  match i with
  | .catFourccDXT1 => Sys2Proof.Machine.execCatFourccDXT1 s
  | .catFourccDXT3 => Sys2Proof.Machine.execCatFourccDXT3 s
  | .catFourccDXT5 => Sys2Proof.Machine.execCatFourccDXT5 s
  | .catFourccBC4 => Sys2Proof.Machine.execCatFourccBC4 s
  | .catFourccBC5 => Sys2Proof.Machine.execCatFourccBC5 s
  | .catFourccBC7 => Sys2Proof.Machine.execCatFourccBC7 s
  | .catFourccA8R8G8B8 => Sys2Proof.Machine.execCatFourccA8R8G8B8 s
  | .catFourccX8R8G8B8 => Sys2Proof.Machine.execCatFourccX8R8G8B8 s
  | .catFourccA4R4G4B4 => Sys2Proof.Machine.execCatFourccA4R4G4B4 s
  | .catFourccA1R5G5B5 => Sys2Proof.Machine.execCatFourccA1R5G5B5 s
  | .catFourccL8 => Sys2Proof.Machine.execCatFourccL8 s
  | .catFourccA8 => Sys2Proof.Machine.execCatFourccA8 s
  | .catFourccD16 => Sys2Proof.Machine.execCatFourccD16 s
  | .catFourccR32F => Sys2Proof.Machine.execCatFourccR32F s
  | .catFourccG16R16F => Sys2Proof.Machine.execCatFourccG16R16F s
  | .catFourccG32R32F => Sys2Proof.Machine.execCatFourccG32R32F s
  | .catFourccA16B16G16R16F => Sys2Proof.Machine.execCatFourccA16B16G16R16F s
  | .catFourccA32B32G32R32F => Sys2Proof.Machine.execCatFourccA32B32G32R32F s
  | .catFourccINVALID => Sys2Proof.Machine.execCatFourccINVALID s
  | .catDxgiDXT1 => Sys2Proof.Machine.execCatDxgiDXT1 s
  | .catDxgiDXT3 => Sys2Proof.Machine.execCatDxgiDXT3 s
  | .catDxgiDXT5 => Sys2Proof.Machine.execCatDxgiDXT5 s
  | .catDxgiBC4 => Sys2Proof.Machine.execCatDxgiBC4 s
  | .catDxgiBC5 => Sys2Proof.Machine.execCatDxgiBC5 s
  | .catDxgiBC7 => Sys2Proof.Machine.execCatDxgiBC7 s
  | .catDxgiA8R8G8B8 => Sys2Proof.Machine.execCatDxgiA8R8G8B8 s
  | .catDxgiX8R8G8B8 => Sys2Proof.Machine.execCatDxgiX8R8G8B8 s
  | .catDxgiA4R4G4B4 => Sys2Proof.Machine.execCatDxgiA4R4G4B4 s
  | .catDxgiA1R5G5B5 => Sys2Proof.Machine.execCatDxgiA1R5G5B5 s
  | .catDxgiL8 => Sys2Proof.Machine.execCatDxgiL8 s
  | .catDxgiA8 => Sys2Proof.Machine.execCatDxgiA8 s
  | .catDxgiD16 => Sys2Proof.Machine.execCatDxgiD16 s
  | .catDxgiR32F => Sys2Proof.Machine.execCatDxgiR32F s
  | .catDxgiG16R16F => Sys2Proof.Machine.execCatDxgiG16R16F s
  | .catDxgiG32R32F => Sys2Proof.Machine.execCatDxgiG32R32F s
  | .catDxgiA16B16G16R16F => Sys2Proof.Machine.execCatDxgiA16B16G16R16F s
  | .catDxgiA32B32G32R32F => Sys2Proof.Machine.execCatDxgiA32B32G32R32F s
  | .catDxgiINVALID => Sys2Proof.Machine.execCatDxgiINVALID s
  | .catVfourcc => Sys2Proof.Machine.execCatVfourcc s
  | .catVdxgi => Sys2Proof.Machine.execCatVdxgi s
  | .hdrBuildDXT1 => Sys2Proof.Machine.execHdrBuildDXT1 s
  | .hdrBuildDXT3 => Sys2Proof.Machine.execHdrBuildDXT3 s
  | .hdrBuildDXT5 => Sys2Proof.Machine.execHdrBuildDXT5 s
  | .hdrBuildBC4 => Sys2Proof.Machine.execHdrBuildBC4 s
  | .hdrBuildBC5 => Sys2Proof.Machine.execHdrBuildBC5 s
  | .hdrBuildBC7 => Sys2Proof.Machine.execHdrBuildBC7 s
  | .hdrBuildA8R8G8B8 => Sys2Proof.Machine.execHdrBuildA8R8G8B8 s
  | .hdrBuildX8R8G8B8 => Sys2Proof.Machine.execHdrBuildX8R8G8B8 s
  | .hdrBuildA4R4G4B4 => Sys2Proof.Machine.execHdrBuildA4R4G4B4 s
  | .hdrBuildA1R5G5B5 => Sys2Proof.Machine.execHdrBuildA1R5G5B5 s
  | .hdrBuildL8 => Sys2Proof.Machine.execHdrBuildL8 s
  | .hdrBuildA8 => Sys2Proof.Machine.execHdrBuildA8 s
  | .hdrBuildD16 => Sys2Proof.Machine.execHdrBuildD16 s
  | .hdrBuildR32F => Sys2Proof.Machine.execHdrBuildR32F s
  | .hdrBuildG16R16F => Sys2Proof.Machine.execHdrBuildG16R16F s
  | .hdrBuildG32R32F => Sys2Proof.Machine.execHdrBuildG32R32F s
  | .hdrBuildA16B16G16R16F => Sys2Proof.Machine.execHdrBuildA16B16G16R16F s
  | .hdrBuildA32B32G32R32F => Sys2Proof.Machine.execHdrBuildA32B32G32R32F s
  | .hdrBuildINVALID => Sys2Proof.Machine.execHdrBuildINVALID s
  | .hdrParse => Sys2Proof.Machine.execHdrParse s
  | .mipSizesDXT1 => Sys2Proof.Machine.execMipSizesDXT1 s
  | .mipSizesDXT3 => Sys2Proof.Machine.execMipSizesDXT3 s
  | .mipSizesDXT5 => Sys2Proof.Machine.execMipSizesDXT5 s
  | .mipSizesBC4 => Sys2Proof.Machine.execMipSizesBC4 s
  | .mipSizesBC5 => Sys2Proof.Machine.execMipSizesBC5 s
  | .mipSizesBC7 => Sys2Proof.Machine.execMipSizesBC7 s
  | .mipSizesA8R8G8B8 => Sys2Proof.Machine.execMipSizesA8R8G8B8 s
  | .mipSizesX8R8G8B8 => Sys2Proof.Machine.execMipSizesX8R8G8B8 s
  | .mipSizesA4R4G4B4 => Sys2Proof.Machine.execMipSizesA4R4G4B4 s
  | .mipSizesA1R5G5B5 => Sys2Proof.Machine.execMipSizesA1R5G5B5 s
  | .mipSizesL8 => Sys2Proof.Machine.execMipSizesL8 s
  | .mipSizesA8 => Sys2Proof.Machine.execMipSizesA8 s
  | .mipSizesD16 => Sys2Proof.Machine.execMipSizesD16 s
  | .mipSizesR32F => Sys2Proof.Machine.execMipSizesR32F s
  | .mipSizesG16R16F => Sys2Proof.Machine.execMipSizesG16R16F s
  | .mipSizesG32R32F => Sys2Proof.Machine.execMipSizesG32R32F s
  | .mipSizesA16B16G16R16F => Sys2Proof.Machine.execMipSizesA16B16G16R16F s
  | .mipSizesA32B32G32R32F => Sys2Proof.Machine.execMipSizesA32B32G32R32F s
  | .mipSizesINVALID => Sys2Proof.Machine.execMipSizesINVALID s
  | .mipTakeDXT1 => Sys2Proof.Machine.execMipTakeDXT1 s
  | .mipTakeDXT3 => Sys2Proof.Machine.execMipTakeDXT3 s
  | .mipTakeDXT5 => Sys2Proof.Machine.execMipTakeDXT5 s
  | .mipTakeBC4 => Sys2Proof.Machine.execMipTakeBC4 s
  | .mipTakeBC5 => Sys2Proof.Machine.execMipTakeBC5 s
  | .mipTakeBC7 => Sys2Proof.Machine.execMipTakeBC7 s
  | .mipTakeA8R8G8B8 => Sys2Proof.Machine.execMipTakeA8R8G8B8 s
  | .mipTakeX8R8G8B8 => Sys2Proof.Machine.execMipTakeX8R8G8B8 s
  | .mipTakeA4R4G4B4 => Sys2Proof.Machine.execMipTakeA4R4G4B4 s
  | .mipTakeA1R5G5B5 => Sys2Proof.Machine.execMipTakeA1R5G5B5 s
  | .mipTakeL8 => Sys2Proof.Machine.execMipTakeL8 s
  | .mipTakeA8 => Sys2Proof.Machine.execMipTakeA8 s
  | .mipTakeD16 => Sys2Proof.Machine.execMipTakeD16 s
  | .mipTakeR32F => Sys2Proof.Machine.execMipTakeR32F s
  | .mipTakeG16R16F => Sys2Proof.Machine.execMipTakeG16R16F s
  | .mipTakeG32R32F => Sys2Proof.Machine.execMipTakeG32R32F s
  | .mipTakeA16B16G16R16F => Sys2Proof.Machine.execMipTakeA16B16G16R16F s
  | .mipTakeA32B32G32R32F => Sys2Proof.Machine.execMipTakeA32B32G32R32F s
  | .mipTakeINVALID => Sys2Proof.Machine.execMipTakeINVALID s
  | .pixDecodeDXT1 => Sys2Proof.Machine.execPixDecodeDXT1 s
  | .pixDecodeDXT3 => Sys2Proof.Machine.execPixDecodeDXT3 s
  | .pixDecodeDXT5 => Sys2Proof.Machine.execPixDecodeDXT5 s
  | .pixDecodeBC4 => Sys2Proof.Machine.execPixDecodeBC4 s
  | .pixDecodeBC5 => Sys2Proof.Machine.execPixDecodeBC5 s
  | .pixDecodeBC7 => Sys2Proof.Machine.execPixDecodeBC7 s
  | .pixDecodeA8R8G8B8 => Sys2Proof.Machine.execPixDecodeA8R8G8B8 s
  | .pixDecodeX8R8G8B8 => Sys2Proof.Machine.execPixDecodeX8R8G8B8 s
  | .pixDecodeA4R4G4B4 => Sys2Proof.Machine.execPixDecodeA4R4G4B4 s
  | .pixDecodeA1R5G5B5 => Sys2Proof.Machine.execPixDecodeA1R5G5B5 s
  | .pixDecodeL8 => Sys2Proof.Machine.execPixDecodeL8 s
  | .pixDecodeA8 => Sys2Proof.Machine.execPixDecodeA8 s
  | .pixDecodeD16 => Sys2Proof.Machine.execPixDecodeD16 s
  | .pixDecodeR32F => Sys2Proof.Machine.execPixDecodeR32F s
  | .pixDecodeG16R16F => Sys2Proof.Machine.execPixDecodeG16R16F s
  | .pixDecodeG32R32F => Sys2Proof.Machine.execPixDecodeG32R32F s
  | .pixDecodeA16B16G16R16F => Sys2Proof.Machine.execPixDecodeA16B16G16R16F s
  | .pixDecodeA32B32G32R32F => Sys2Proof.Machine.execPixDecodeA32B32G32R32F s
  | .pixDecodeINVALID => Sys2Proof.Machine.execPixDecodeINVALID s
  | .pixEncodeDXT1 => Sys2Proof.Machine.execPixEncodeDXT1 s
  | .pixEncodeDXT3 => Sys2Proof.Machine.execPixEncodeDXT3 s
  | .pixEncodeDXT5 => Sys2Proof.Machine.execPixEncodeDXT5 s
  | .pixEncodeBC4 => Sys2Proof.Machine.execPixEncodeBC4 s
  | .pixEncodeBC5 => Sys2Proof.Machine.execPixEncodeBC5 s
  | .pixEncodeBC7 => Sys2Proof.Machine.execPixEncodeBC7 s
  | .pixEncodeA8R8G8B8 => Sys2Proof.Machine.execPixEncodeA8R8G8B8 s
  | .pixEncodeX8R8G8B8 => Sys2Proof.Machine.execPixEncodeX8R8G8B8 s
  | .pixEncodeA4R4G4B4 => Sys2Proof.Machine.execPixEncodeA4R4G4B4 s
  | .pixEncodeA1R5G5B5 => Sys2Proof.Machine.execPixEncodeA1R5G5B5 s
  | .pixEncodeL8 => Sys2Proof.Machine.execPixEncodeL8 s
  | .pixEncodeA8 => Sys2Proof.Machine.execPixEncodeA8 s
  | .pixEncodeD16 => Sys2Proof.Machine.execPixEncodeD16 s
  | .pixEncodeR32F => Sys2Proof.Machine.execPixEncodeR32F s
  | .pixEncodeG16R16F => Sys2Proof.Machine.execPixEncodeG16R16F s
  | .pixEncodeG32R32F => Sys2Proof.Machine.execPixEncodeG32R32F s
  | .pixEncodeA16B16G16R16F => Sys2Proof.Machine.execPixEncodeA16B16G16R16F s
  | .pixEncodeA32B32G32R32F => Sys2Proof.Machine.execPixEncodeA32B32G32R32F s
  | .pixEncodeINVALID => Sys2Proof.Machine.execPixEncodeINVALID s

end Sys2Proof.Machine
end

