-- ==== Sys2Proof/Machine/HostPort.lean ====
section
/-! DEFINITION. The interface: what one action of the host or of the platform does (10_state.md R12, R20;
20_memory.md R39, R40, R41; 30_encoding.md R45; 70_reset_and_hazards.md R165, R167). -/

namespace Sys2Proof.Machine

/-- The `CODEC` step for command word `w`: the instruction it decodes to, or `ILLEGAL_COMMAND` (30_encoding.md R45,
R49; 60_exceptions.md R144). A configuration that violates R74 is refused (log entry 7). -/
def codecStep (w : Word) (s : State) : Host.Outcome State Fault Refusal :=
  if s.cfg.Wf then
    match decode w with
    | .ok i => exec i s
    | .error _ => .next (s.raise .illegalCommand)
  else .refused .illFormedConfig

/-- A host write of a register: `CMD` takes the word and the `CODEC` step for it runs (R12); every other register takes
the word or ignores it (R11, R39). -/
def writeRegister (r : Reg) (w : Word) (s : State) : Host.Outcome State Fault Refusal :=
  match r with
  | .cmd => codecStep w (s.hostSet .cmd w)
  | .width | .height | .layers | .mips | .tlayer | .inlen | .code
  | .status | .outlen | .rvariant | .rwidth | .rheight | .rlayers | .rmips | .rcode => .next (s.hostSet r w)

/-- A host write of one `IBUF` byte (R19, R39). -/
def writeInputByte (a : Nat) (b : Byte) (s : State) : Host.Outcome State Fault Refusal :=
  if exceeds (a + 1) s.cfg.ibufCap then .fault .ibufIndexAbsent
  else .next { s with ibuf := s.ibuf.put a b }

/-- A host read of one `OBUF` byte: a listed byte's value, or a draw (R20, R39). -/
def readOutputByte (a : Nat) (s : State) : Host.Outcome State Fault Refusal :=
  if exceeds (a + 1) s.cfg.obufCap then .fault .obufIndexAbsent
  else
    match s.obuf.byte? a with
    | some b => .next { s with returned := .byte b :: s.returned }
    | none => .next { s with returned := .byte (Config.freeObufByte s.draws a) :: s.returned, draws := s.draws + 1 }

/-- Reset: every register, both buffers as after reset (R22, R23); the configuration stays (R21), and so do the host's
own actions, what it read, and the draw counter (log entry 9). -/
def State.applyReset (s : State) : State :=
  { State.reset with cfg := s.cfg, pending := s.pending, returned := s.returned, draws := s.draws }

/-- What one action does. -/
def perform (a : HostAction) (s : State) : Host.Outcome State Fault Refusal :=
  match a with
  | .writeReg r w => writeRegister r w s
  | .readReg r => .next { s with returned := .word (s.reg r) :: s.returned }
  | .writeIbuf i b => writeInputByte i b s
  | .readObuf i => readOutputByte i s
  | .reset => .next s.applyReset

/-- One step: the oldest pending action; with none pending the block does nothing, since it "never initiates an access"
(20_memory.md R41, 70_reset_and_hazards.md R175; log entry 1). -/
def hostStep (s : State) : Host.Outcome State Fault Refusal :=
  match s.pending with
  | [] => .next s
  | a :: rest => perform a { s with pending := rest }

end Sys2Proof.Machine
end

