-- ==== Sys2Proof/Machine/Step.lean ====
section
/-! DEFINITION. The step function, and how a command word is placed where the next step takes it. -/

namespace Sys2Proof.Machine

/-- One step of the machine: the oldest pending host action (log entry 1). -/
def step (s : State) : Host.Outcome State Fault Refusal := hostStep s

/-- The state in which the host's very next action is the write of command word `w` to `CMD` (10_state.md R12; log
entry 2). -/
def State.withFetchWord (s : State) (_nbits w : Nat) : State :=
  { s with pending := .writeReg .cmd (BitVec.ofNat 32 w) :: s.pending }

end Sys2Proof.Machine
end

