-- ==== Sys2Proof/Machine/HostProgram.lean ====
section
/-! DEFINITION. Host programs: the actions of a line of 30_encoding.md R66, the expansion of a pseudo-instruction R67, the
text of a line, and a program placed in the host's pending actions. -/

namespace Sys2Proof.Machine

/-- `⌈x⌉`: the 32-bit two's-complement word of an integer (R67). -/
def toWord (x : Int) : Word := BitVec.ofInt 32 x

/-- The host actions of a line (R66). -/
def lineActions : HostLine → List HostAction
  | .set r value => [.writeReg r (toWord value)]
  | .ibuf bytes => bytes.mapIdx fun i b => .writeIbuf i b
  | .command i => [.writeReg .cmd (encode i)]
  | .get r => [.readReg r]
  | .obuf n => (List.range n).map .readObuf
  | .comment => []

/-- The lines a pseudo-instruction expands to (R67). -/
def pseudoLines : Pseudo → List HostLine
  | .fourCCOf v => [.command (Command.catFourcc v).instr]
  | .dxgiOf v => [.command (Command.catDxgi v).instr]
  | .variantOfFourCC c => [.set .code c.toNat, .command .catVfourcc]
  | .variantOfDxgi c => [.set .code c.toNat, .command .catVdxgi]
  | .build v w h l m =>
    [.set .width w, .set .height h, .set .layers l, .set .mips m, .command (Command.hdrBuild v).instr]
  | .parse bytes => [.ibuf bytes, .set .inlen bytes.length, .command .hdrParse]
  | .computeLevelSizes v w h => [.set .width w, .set .height h, .command (Command.mipSizes v).instr]
  | .takeLevels v w h n => [.set .width w, .set .height h, .set .mips n, .command (Command.mipTake v).instr]
  | .decode bytes w h v l t =>
    [.ibuf bytes, .set .inlen bytes.length, .set .width w, .set .height h, .set .layers l, .set .tlayer t,
     .command (Command.pixDecode v).instr]
  | .encode bytes v l => [.ibuf bytes, .set .inlen bytes.length, .set .layers l, .command (Command.pixEncode v).instr]

/-- A program placed after the actions already pending (log entry 2). -/
def State.load (s : State) (lines : List HostLine) : State :=
  { s with pending := s.pending ++ lines.flatMap lineActions }

/-! ### The text of a line (R66; log entry 18) -/

/-- A variant's name (30_encoding.md R47). -/
def variantName : Variant → List Char
  | .dxt1 => "DXT1".toList
  | .dxt3 => "DXT3".toList
  | .dxt5 => "DXT5".toList
  | .bc4 => "BC4".toList
  | .bc5 => "BC5".toList
  | .bc7 => "BC7".toList
  | .a8r8g8b8 => "A8R8G8B8".toList
  | .x8r8g8b8 => "X8R8G8B8".toList
  | .a4r4g4b4 => "A4R4G4B4".toList
  | .a1r5g5b5 => "A1R5G5B5".toList
  | .l8 => "L8".toList
  | .a8 => "A8".toList
  | .d16 => "D16".toList
  | .r32f => "R32F".toList
  | .g16r16f => "G16R16F".toList
  | .g32r32f => "G32R32F".toList
  | .a16b16g16r16f => "A16B16G16R16F".toList
  | .a32b32g32r32f => "A32B32G32R32F".toList
  | .invalid => "INVALID".toList

/-- An operation's mnemonic with its variant (R48, R66). -/
def commandName : Command → List Char
  | .catFourcc v => "CAT.FOURCC.".toList ++ variantName v
  | .catDxgi v => "CAT.DXGI.".toList ++ variantName v
  | .catVfourcc => "CAT.VFOURCC".toList
  | .catVdxgi => "CAT.VDXGI".toList
  | .hdrBuild v => "HDR.BUILD.".toList ++ variantName v
  | .hdrParse => "HDR.PARSE".toList
  | .mipSizes v => "MIP.SIZES.".toList ++ variantName v
  | .mipTake v => "MIP.TAKE.".toList ++ variantName v
  | .pixDecode v => "PIX.DECODE.".toList ++ variantName v
  | .pixEncode v => "PIX.ENCODE.".toList ++ variantName v

/-- A register's name (10_state.md R11). -/
def regName : Reg → List Char
  | .cmd => "CMD".toList
  | .width => "WIDTH".toList
  | .height => "HEIGHT".toList
  | .layers => "LAYERS".toList
  | .mips => "MIPS".toList
  | .tlayer => "TLAYER".toList
  | .inlen => "INLEN".toList
  | .code => "CODE".toList
  | .status => "STATUS".toList
  | .outlen => "OUTLEN".toList
  | .rvariant => "RVARIANT".toList
  | .rwidth => "RWIDTH".toList
  | .rheight => "RHEIGHT".toList
  | .rlayers => "RLAYERS".toList
  | .rmips => "RMIPS".toList
  | .rcode => "RCODE".toList

/-- Every command: each operation with each variant it takes (R48). -/
def allCommands : List Command :=
  let variants := Variant.real ++ [.invalid]
  variants.map .catFourcc ++ variants.map .catDxgi ++ [.catVfourcc, .catVdxgi]
    ++ variants.map .hdrBuild ++ [.hdrParse] ++ variants.map .mipSizes ++ variants.map .mipTake
    ++ variants.map .pixDecode ++ variants.map .pixEncode

/-- The words of a line: what stands before a semicolon, cut at spaces and commas (R66). -/
def lineWords (line : List Char) : List (List Char) :=
  ((line.takeWhile (· ≠ ';')).splitOnP fun c => c = ' ' || c = ',').filter (· ≠ [])

/-- The value of a digit in a base up to 16. -/
def digit (base : Nat) (c : Char) : Option Nat :=
  let n := c.toNat
  let d :=
    if 48 ≤ n ∧ n ≤ 57 then n - 48
    else if 65 ≤ n ∧ n ≤ 70 then n - 55
    else if 97 ≤ n ∧ n ≤ 102 then n - 87
    else 16
  if d < base then some d else none

/-- A numeral in a base; no digits is no numeral. -/
def numeral (base : Nat) (cs : List Char) : Option Nat :=
  if cs = [] then none
  else cs.foldl (fun acc c => acc.bind fun n => (digit base c).map fun d => base * n + d) (some 0)

/-- A value: decimal, `0x` hexadecimal, or a negative decimal (R66). -/
def parseValue : List Char → Option Int
  | '0' :: 'x' :: cs => (numeral 16 cs).map Int.ofNat
  | '-' :: cs => (numeral 10 cs).map fun n => -(n : Int)
  | cs => (numeral 10 cs).map Int.ofNat

/-- A byte as two hexadecimal digits (R66). -/
def parseByte (cs : List Char) : Option Byte :=
  if cs.length = 2 then (numeral 16 cs).map (BitVec.ofNat 8) else none

/-- The register of a name. -/
def parseReg (cs : List Char) : Option Reg := Reg.all.find? fun r => regName r = cs

/-- The instruction of a mnemonic. -/
def parseMnemonic (cs : List Char) : Option Instr :=
  (allCommands.find? fun c => commandName c = cs).map Command.instr

/-- A line of a host program, or none where the text is no line of R66 or the line is not well formed. DESIGN CHOICE (log
entry 18): the count of an `OBUF` line is decimal only, and a line with no words is a comment line; R66 says neither. -/
def parseLine (line : List Char) : Option HostLine :=
  match lineWords line with
  | [] => some .comment
  | [w] => if w = "IBUF".toList then some (.ibuf []) else (parseMnemonic w).map .command
  | w :: a :: rest =>
    if w = "IBUF".toList then ((a :: rest).mapM parseByte).map .ibuf
    else if w = "GET".toList ∧ rest = [] then (parseReg a).map .get
    else if w = "OBUF".toList ∧ rest = [] then (numeral 10 a).map .obuf
    else if w = "SET".toList then
      match rest with
      | [v] =>
        (parseReg a).bind fun r => (parseValue v).bind fun n =>
          if r.settable = true ∧ -(2 ^ 31) ≤ n ∧ n < 2 ^ 32 then some (.set r n) else none
      | _ => none
    else none

end Sys2Proof.Machine
end

