-- ==== Sys2Proof/Safety.lean ====
section
/-! DEFINITION. The terms the statements use: the state invariant, what an operation's success and its exception leave
behind, frames, and which registers an operation reads and writes. They are written from 10_state.md R13, R20, R25 and
60_exceptions.md R150, not from the operations of Machine/Ops.lean. -/

namespace Sys2Proof.Machine

/-- A status word the block can show (10_state.md R13, R14): reserved bits zero, `STATE` never 3, `ERR` a produced code
and non-zero exactly after an exception, `STICKY` set after an exception, and all zero before the first operation. -/
structure StatusLegal (w : Word) : Prop where
  reserved_zero : w.extractLsb' 2 2 = 0 ∧ w.extractLsb' 9 23 = 0
  state_produced : statusState w ≠ 3
  err_produced : (statusErr w).toNat ≤ 10
  err_iff_error : statusErr w ≠ 0 ↔ statusState w = stateError
  error_sticky : statusState w = stateError → statusSticky w = true
  idle_zero : statusState w = stateIdle → w = 0

/-- No listed index lies at or beyond the capacity (10_state.md R19). -/
def Memory.Within (m : Memory) (cap : Option Nat) : Prop := ∀ c ∈ m, exceeds (c.1 + 1) cap = false

/-- The invariant of the machine. -/
structure State.Inv (s : State) : Prop where
  status_legal : StatusLegal s.status
  ibuf_wf : s.ibuf.wf
  obuf_wf : s.obuf.wf
  ibuf_within : s.ibuf.Within s.cfg.ibufCap
  obuf_within : s.obuf.Within s.cfg.obufCap
  /-- The bytes of `OBUF` that hold a value are exactly those below `OUTLEN` (R20). -/
  obuf_valid : ∀ a, (s.obuf.byte? a).isSome = true ↔ a < s.outlen.toNat
  /-- Before the first operation and after an exception nothing is valid (R20, R22). -/
  no_output : statusState s.status ≠ stateDone → s.outlen = 0

/-- `t` is what a success with output `out` leaves, seen from the state `s` the operation began in: `STATUS` says `DONE`
with no error and the old `STICKY` (R13, R14), `OUTLEN` is the length, `OBUF` holds exactly `out` and every other byte
holds no value (R20). -/
structure Succeeds (s t : State) (out : List Byte) : Prop where
  state_done : statusState t.status = stateDone
  err_zero : statusErr t.status = 0
  sticky_kept : statusSticky t.status = statusSticky s.status
  reserved_zero : t.status.extractLsb' 2 2 = 0 ∧ t.status.extractLsb' 9 23 = 0
  outlen_length : t.outlen.toNat = out.length
  obuf_bytes : ∀ a, t.obuf.byte? a = out[a]?

/-- Everything outside the registers `written` is unchanged, `OBUF` and the draw counter apart: registers, every `IBUF`
byte, the configuration, the host's own actions and what it read. -/
structure Frame (written : List Reg) (s t : State) : Prop where
  regs : ∀ r, r ∉ written → t.reg r = s.reg r
  ibuf_bytes : ∀ a, t.ibuf.byte? a = s.ibuf.byte? a
  cfg : t.cfg = s.cfg
  pending : t.pending = s.pending
  returned : t.returned = s.returned

/-- The operand registers 0 to 7: no operation changes them (R11, R25). -/
def operandRegs : List Reg := [.cmd, .width, .height, .layers, .mips, .tlayer, .inlen, .code]

/-- The result registers 10 to 15 (R11). -/
def resultRegs : List Reg := [.rvariant, .rwidth, .rheight, .rlayers, .rmips, .rcode]

/-- `t` is what the exception `e` leaves, seen from the state `s` the operation began in (60_exceptions.md R150). Nothing
is said of the six result registers: they are unspecified. -/
structure Raised (s t : State) (e : Exc) : Prop where
  state_error : statusState t.status = stateError
  err_code : statusErr t.status = e.code
  sticky_set : statusSticky t.status = true
  reserved_zero : t.status.extractLsb' 2 2 = 0 ∧ t.status.extractLsb' 9 23 = 0
  outlen_zero : t.outlen = 0
  obuf_invalid : ∀ a, t.obuf.byte? a = none
  frame : Frame (.status :: .outlen :: resultRegs) s t

end Sys2Proof.Machine

namespace Sys2Proof

/-- The registers an operation reads, `CMD` apart (R25). -/
def Command.reads : Command → List Reg
  | .catFourcc _ | .catDxgi _ => []
  | .catVfourcc | .catVdxgi => [.code]
  | .hdrBuild _ => [.width, .height, .layers, .mips]
  | .hdrParse => [.inlen]
  | .mipSizes _ => [.width, .height]
  | .mipTake _ => [.width, .height, .mips]
  | .pixDecode _ => [.width, .height, .layers, .tlayer, .inlen]
  | .pixEncode _ => [.layers, .inlen]

/-- Whether an operation reads `IBUF` (R25). -/
def Command.readsInput : Command → Bool
  | .hdrParse | .pixDecode _ | .pixEncode _ => true
  | .catFourcc _ | .catDxgi _ | .catVfourcc | .catVdxgi | .hdrBuild _ | .mipSizes _ | .mipTake _ => false

/-- The result registers an operation writes on success (R25). -/
def Command.writes : Command → List Reg
  | .catFourcc _ | .catDxgi _ => [.rcode]
  | .catVfourcc | .catVdxgi => [.rvariant]
  | .hdrBuild _ => [.rlayers, .rcode]
  | .hdrParse => [.rvariant, .rwidth, .rheight, .rlayers, .rmips, .rcode]
  | .mipSizes _ | .mipTake _ => [.rmips]
  | .pixDecode _ | .pixEncode _ => []

end Sys2Proof

namespace Sys2Proof.Machine

/-- A length is within a capacity, if there is one (20_memory.md R40). -/
abbrev fits (n : Nat) (cap : Option Nat) : Prop := cap.all (fun c => decide (n ≤ c)) = true

/-- An output of `n` bytes is within the output capacity and its length fits `OUTLEN` (R40, 00_scope.md R8). -/
abbrev OutputFits (cfg : Config) (n : Nat) : Prop := fits n cfg.obufCap ∧ n < 2 ^ 32

/-- The instruction takes the exception `e` in `s`: a next state, as 60_exceptions.md R150 says. -/
def Raises (i : Instr) (s : State) (e : Exc) : Prop := ∃ t, exec i s = .next t ∧ Raised s t e

/-- The instruction succeeds in `s` with output `out`, and changes no register but `STATUS`, `OUTLEN` and `ws`. -/
def Completes (i : Instr) (s t : State) (out : List Byte) (ws : List Reg) : Prop :=
  exec i s = .next t ∧ Succeeds s t out ∧ Frame (.status :: .outlen :: ws) s t

/-- The input bytes of an operation: `IBUF[0 .. INLEN)`, each read once (R40). -/
def inputBytes (s : State) : List Byte := (List.range s.inlen.toNat).map s.ibufByte

/-- The 32-bit little-endian field at an offset of a byte sequence (20_memory.md R32). -/
def fieldAt (b : List Byte) (o : Nat) : Nat :=
  (b.getD o 0).toNat + 256 * (b.getD (o + 1) 0).toNat + 65536 * (b.getD (o + 2) 0).toNat
    + 16777216 * (b.getD (o + 3) 0).toNat

/-- The 32-bit little-endian field at an offset of `IBUF`, as an operation reads it (R32, 00_scope.md R9 `u32`). -/
def inputField (s : State) (o : Nat) : Nat :=
  (s.ibufByte o).toNat + 256 * (s.ibufByte (o + 1)).toNat + 65536 * (s.ibufByte (o + 2)).toNat
    + 16777216 * (s.ibufByte (o + 3)).toNat

/-- The 16-bit little-endian word at an offset of `IBUF`, as an operation reads it (R34, 00_scope.md R9 `u16`). -/
def inputHalf (s : State) (o : Nat) : Nat := (s.ibufByte o).toNat + 256 * (s.ibufByte (o + 1)).toNat

/-- The operands of a build are in the source's range: `W > 0`, `H > 0`, `M >= 1` (41_header.md R80). -/
abbrev BuildOperandsValid (s : State) : Prop := 0 < s.width.toInt ∧ 0 < s.height.toInt ∧ 1 ≤ s.mips.toInt

/-- The header needs the extension block (41_header.md R82). -/
abbrev NeedsExt (s : State) (v : Variant) : Prop :=
  1 < s.layerCount ∨ v ∈ s.cfg.alwaysExt ∨ (s.cfg.catalog.codes v).fourCC = 0

/-- The codes a build needs can be resolved (41_header.md R87). -/
abbrev BuildResolves (s : State) (v : Variant) : Prop :=
  ((s.cfg.catalog.codes v).fourCC ≠ 0 ∨ (s.cfg.catalog.codes v).dxgi ≠ 0) ∧
  (NeedsExt s v → (s.cfg.catalog.codes v).dxgi ≠ 0)

/-- The pitch or linear size of a build (41_header.md R81). -/
def buildPitch (s : State) (v : Variant) : Nat := (pitchRule s.cfg v s.width.toInt.toNat s.height.toInt.toNat).1

/-- The three fixed fields a parse checks hold (41_header.md R92). -/
abbrev HeaderFixedFields (s : State) : Prop :=
  inputField s 0 = 0x20534444 ∧ inputField s 4 = 124 ∧ inputField s 76 = 32

/-- `depth(W, H)` as 42_mip.md R101 gives it. -/
def depth (w h : Nat) : Nat := Nat.log2 (max w h) + 1

/-- The byte length of level `k` of a pyramid: the dimensions halved `k` times, rounding down, to no less than 1, each
raised to the tile, times the bits per pixel, by 8 (42_mip.md R100). -/
def levelBytes (v : Variant) (w h k : Nat) : Nat :=
  max (minTile v) (max 1 (w / 2 ^ k)) * max (minTile v) (max 1 (h / 2 ^ k)) * bitsPerPixel v / 8

/-- The pixel count of a decode: `N = W·H·L` (43_pixel_decode.md R111). -/
def pixelCount (s : State) : Nat := s.width.toInt.toNat * s.height.toInt.toNat * s.layerCount

/-- The conditions every decode needs to complete: positive dimensions, an input within its capacity, and a target layer
below the layer count (43_pixel_decode.md R110, R112). -/
structure DecodeReady (s : State) : Prop where
  width_pos : 0 < s.width.toInt
  height_pos : 0 < s.height.toInt
  input_fits : fits s.inlen.toNat s.cfg.ibufCap
  layer_in_range : s.tlayer.toInt < s.layerCount

/-- What stage 2 of a decode selects of a stage-1 output: the whole for a negative target layer, else that layer's
`len / L` bytes (43_pixel_decode.md R112). -/
def layerSlice (full : List Byte) (layers : Nat) (target : Int) : List Byte :=
  if target < 0 then full else (full.drop (full.length / layers * target.toNat)).take (full.length / layers)

/-- The length of what stage 2 selects of `n` bytes (43_pixel_decode.md R112). -/
def sliceLength (n : Nat) (s : State) : Nat := if s.tlayer.toInt < 0 then n else n / s.layerCount

/-- The decode completes with what stage 2 selects of `full`. -/
def DecodesTo (v : Variant) (s : State) (full : List Byte) : Prop :=
  ∃ t, Completes (Command.pixDecode v).instr s t (layerSlice full s.layerCount s.tlayer.toInt) []

/-- The six variants whose stage 1 transforms pixels (43_pixel_decode.md R111). -/
def transformed : List Variant := [.a1r5g5b5, .a4r4g4b4, .l8, .a8, .a16b16g16r16f, .a8r8g8b8]

/-- The six variants whose stage 1 passes the input through (43_pixel_decode.md R121 to R126). -/
def passedThrough : List Variant := [.x8r8g8b8, .r32f, .g16r16f, .g32r32f, .a32b32g32r32f, .d16]

/-- The six block-compressed variants (40_catalog.md R70). -/
def blockCompressed : List Variant := [.dxt1, .dxt3, .dxt5, .bc4, .bc5, .bc7]

end Sys2Proof.Machine
end

