-- ==== Sys2Proof/Certificates/Slice0/Obligations.lean ====
section
/-! DEFINITION. The statements for the provers. Each docstring names the rule of the spec it formalises. Registers are read
as `sint32` or `uint32` through `BitVec.toInt` and `BitVec.toNat` (30_encoding.md R50). -/

open Sys2Proof Sys2Proof.Machine

/-! ### Command words, the step, the interface -/

/-- 30_encoding.md R45 to R48: a word decodes to an instruction exactly when it is that instruction's word of
`opcode_table.json`; so decoding is right on every word, and no two rows overlap. -/
def Obligations.DecodeSelectsExactlyTheTableRow : Prop :=
  ∀ (w : Word) (i : Instr), decode w = .ok i ↔ w = encode i

/-- 30_encoding.md R48, 40_catalog.md R75 to R78, 41_header.md R89, R92, 42_mip.md R102, 43_pixel_decode.md R114, R133,
44_pixel_encode.md R136: command words written out in the rules. -/
def Obligations.WordsOfTheRulesDecode : Prop :=
  decode 0x00000201 = .ok .catFourccDXT5 ∧ decode 0x00000502 = .ok .catDxgiBC7 ∧
  decode 0x00000003 = .ok .catVfourcc ∧ decode 0x00000004 = .ok .catVdxgi ∧
  decode 0x00000610 = .ok .hdrBuildA8R8G8B8 ∧ decode 0x00000011 = .ok .hdrParse ∧
  decode 0x00000020 = .ok .mipSizesDXT1 ∧ decode 0x00000121 = .ok .mipTakeDXT3 ∧
  decode 0x00000930 = .ok .pixDecodeA1R5G5B5 ∧ decode 0x00001230 = .ok .pixDecodeINVALID ∧
  decode 0x00000631 = .ok .pixEncodeA8R8G8B8

/-- 30_encoding.md R49: the four conditions, tested in the order (a) to (d), are exactly the words that are no
instruction; each raises `ILLEGAL_COMMAND`; `VAR = 18` is legal and its operation raises `UNSUPPORTED_FORMAT`. -/
def Obligations.IllegalCommandExactlyUnderTheFourConditions : Prop :=
  ∀ (w : Word) (s : State), s.cfg.Wf →
    let op := w.toNat % 256
    let var := w.toNat / 256 % 256
    let high := w.toNat / 65536
    let takesVar := op ∈ [0x01, 0x02, 0x10, 0x20, 0x21, 0x30, 0x31]
    let takesNone := op ∈ [0x03, 0x04, 0x11]
    (high ≠ 0 → decode w = .error .highBitsSet) ∧
    (high = 0 → ¬ takesVar → ¬ takesNone → decode w = .error .unknownOperation) ∧
    (high = 0 → takesNone → var ≠ 0 → decode w = .error .variantNotTaken) ∧
    (high = 0 → takesVar → 18 < var → decode w = .error .variantOutOfRange) ∧
    (high = 0 → takesNone → var = 0 → ∃ i, decode w = .ok i) ∧
    (high = 0 → takesVar → var ≤ 18 → ∃ i, decode w = .ok i) ∧
    (∀ reason, decode w = .error reason →
      ∃ t, perform (.writeReg .cmd w) s = .next t ∧ Raised { s with cmd := w } t .illegalCommand) ∧
    (high = 0 → takesVar → var = 18 →
      ∃ t, perform (.writeReg .cmd w) s = .next t ∧ Raised { s with cmd := w } t .unsupportedFormat)

/-- 10_state.md R12, 30_encoding.md R45: a step whose oldest action is a write of a word to `CMD` stores the word and runs
the instruction it decodes to, on the state that holds the word. The second clause is the same of `withFetchWord`. The
model's queue of actions and its refusal of an ill-formed configuration are log entries 1 and 7. -/
def Obligations.StepRunsTheDecodedInstruction : Prop :=
  (∀ (s : State) (w : Word) (rest : List HostAction) (i : Instr),
    s.pending = .writeReg .cmd w :: rest → s.cfg.Wf → decode w = .ok i →
    step s = exec i { s with pending := rest, cmd := w }) ∧
  (∀ (s : State) (i : Instr), s.cfg.Wf →
    step (s.withFetchWord 32 (encode i).toNat) = exec i { s with cmd := encode i })

/-- 10_state.md R11, 20_memory.md R39: the registers are numbered 0 to 15; a host write to registers 1 to 7 changes only that
register; one to registers 8 to 15 changes nothing. The queue of actions is the model's own (log entry 1). -/
def Obligations.HostRegisterWriteChangesOnlyThatRegister : Prop :=
  Reg.all.map regNumber = List.range 16 ∧
  ∀ (s : State) (r : Reg) (w : Word) (rest : List HostAction),
    s.pending = .writeReg r w :: rest → r ≠ .cmd →
    ∃ t, step s = .next t ∧
      t.reg r = (if regNumber r ≤ 7 then w else s.reg r) ∧
      (∀ q, q ≠ r → t.reg q = s.reg q) ∧
      t.ibuf = s.ibuf ∧ t.obuf = s.obuf ∧ t.cfg = s.cfg ∧ t.pending = rest ∧ t.returned = s.returned ∧
      t.draws = s.draws

/-- 10_state.md R19, 20_memory.md R39: a host write of an `IBUF` byte within the capacity changes only that byte. The
queue of actions is the model's own (log entry 1). -/
def Obligations.HostInputWriteChangesOnlyThatByte : Prop :=
  ∀ (s : State) (a : Nat) (b : Byte) (rest : List HostAction),
    s.pending = .writeIbuf a b :: rest → fits (a + 1) s.cfg.ibufCap →
    ∃ t, step s = .next t ∧
      t.ibuf.byte? a = some b ∧ (∀ x, x ≠ a → t.ibuf.byte? x = s.ibuf.byte? x) ∧
      (∀ q, t.reg q = s.reg q) ∧ t.obuf = s.obuf ∧ t.cfg = s.cfg ∧ t.pending = rest ∧ t.returned = s.returned ∧
      t.draws = s.draws

/-- 20_memory.md R39, 10_state.md R20: a host read of a register or of an `OBUF` byte changes no register, buffer or
configuration; a byte that holds a value is returned, any other gives some byte. What a read got back stands in the
model's own field `returned` (log entry 3). -/
def Obligations.HostReadsReturnTheValueAndChangeNothing : Prop :=
  (∀ (s : State) (r : Reg) (rest : List HostAction), s.pending = .readReg r :: rest →
    step s = .next { s with pending := rest, returned := .word (s.reg r) :: s.returned }) ∧
  (∀ (s : State) (a : Nat) (b : Byte) (rest : List HostAction), s.pending = .readObuf a :: rest →
    fits (a + 1) s.cfg.obufCap → s.obuf.byte? a = some b →
    step s = .next { s with pending := rest, returned := .byte b :: s.returned }) ∧
  (∀ (s : State) (a : Nat) (rest : List HostAction), s.pending = .readObuf a :: rest →
    fits (a + 1) s.cfg.obufCap → s.obuf.byte? a = none →
    ∃ b, step s = .next { s with pending := rest, returned := .byte b :: s.returned, draws := s.draws + 1 })

/-- The model's choice (log entries 7, 8, 11): a step stops only for a buffer index that the capacity says does not exist, or
for a command under a configuration that is not well formed: one that violates 40_catalog.md R74, or whose extension
sentinel is 0 (93_implementation_defined.md U3; log entry 8). No instruction stops. -/
def Obligations.StepStopsOnlyForAbsentIndexOrIllFormedConfig : Prop :=
  ∀ s : State,
    (∀ f, step s = .fault f → ∃ a rest,
      (f = .ibufIndexAbsent ∧ ¬ fits (a + 1) s.cfg.ibufCap ∧ ∃ b, s.pending = .writeIbuf a b :: rest) ∨
      (f = .obufIndexAbsent ∧ ¬ fits (a + 1) s.cfg.obufCap ∧ s.pending = .readObuf a :: rest)) ∧
    (∀ f, step s = .refused f →
      f = .illFormedConfig ∧ ¬ s.cfg.Wf ∧ ∃ w rest, s.pending = .writeReg .cmd w :: rest)

/-! ### Reset and invariants -/

/-- 10_state.md R22: the register values after reset, and that the reset action starts no operation: it answers a state with
exactly those register values, `STATUS` idle among them. -/
def Obligations.RegistersAfterReset : Prop :=
  (∀ r, r ≠ .tlayer → State.reset.reg r = 0) ∧ State.reset.reg .tlayer = 0xFFFFFFFF ∧
  State.reset.tlayer.toInt = -1 ∧ statusState State.reset.status = stateIdle ∧ statusErr State.reset.status = 0 ∧
  statusSticky State.reset.status = false ∧
  (∀ s : State, ∃ t, perform .reset s = .next t ∧ ∀ r, t.reg r = State.reset.reg r)

/-- 10_state.md R22, R23: the reset action gives every register its reset value and leaves no buffer byte valid. That the
configuration, the host's own actions and the draw counter stay is the model's choice (log entry 9). -/
def Obligations.ResetActionRestoresResetValues : Prop :=
  ∀ (s : State) (rest : List HostAction), s.pending = .reset :: rest →
    ∃ t, step s = .next t ∧ (∀ r, t.reg r = State.reset.reg r) ∧
      (∀ a, t.ibuf.byte? a = none) ∧ (∀ a, t.obuf.byte? a = none) ∧
      t.cfg = s.cfg ∧ t.pending = rest ∧ t.returned = s.returned ∧ t.draws = s.draws

/-- The invariant holds at reset. -/
def Obligations.ResetMeetsTheInvariant : Prop := State.reset.Inv

/-- Every step keeps the invariant: `STATUS` is a legal status word (10_state.md R13, R14), both buffers keep their
canonical form within their capacities (R19), `OBUF` is valid exactly below `OUTLEN` (R20), and nothing is valid before
the first operation or after an exception (R20, R22). -/
def Obligations.EveryStepKeepsTheInvariant : Prop :=
  ∀ s t : State, s.Inv → step s = .next t → t.Inv

/-- 10_state.md R13, R14, 70_reset_and_hazards.md R167: no step but reset clears `STICKY`, and only a step that ends in
`ERROR` sets it. -/
def Obligations.StickyIsSetByErrorsAndClearedByResetOnly : Prop :=
  ∀ s t : State, step s = .next t →
    (statusSticky s.status = true → (∀ rest, s.pending ≠ .reset :: rest) → statusSticky t.status = true) ∧
    (statusSticky s.status = false → statusSticky t.status = true → statusState t.status = stateError)

/-- 10_state.md R17, R21, 70_reset_and_hazards.md R166: no step changes the configuration, and so none the catalog. -/
def Obligations.NoStepChangesTheConfiguration : Prop :=
  ∀ s t : State, step s = .next t → t.cfg = s.cfg

/-! ### Every operation -/

/-- 10_state.md R14, R25, 60_exceptions.md R150, R153, R173: every instruction in every state ends at once, either in `DONE`
with some output, having written no register but `STATUS`, `OUTLEN` and its own result registers, or in `ERROR` by one
exception; in both cases every operand register and every `IBUF` byte is unchanged. -/
def Obligations.EveryOperationEndsDoneOrInOneError : Prop :=
  ∀ (i : Instr) (s : State), ∃ t, exec i s = .next t ∧
    ((∃ out, Succeeds s t out ∧ Frame (.status :: .outlen :: i.command.writes) s t) ∨ (∃ e, Raised s t e)) ∧
    (∀ r ∈ operandRegs, t.reg r = s.reg r) ∧ (∀ a, t.ibuf.byte? a = s.ibuf.byte? a)

/-- 10_state.md R14, R25: what an operation leaves depends only on the registers and `IBUF` bytes the table of R25 says it
reads (and on the configuration and the model's own draw counter, log entry 4), not on any other register, on `OBUF` or on
an earlier outcome. -/
def Obligations.ResultDependsOnlyOnWhatTheOperationReads : Prop :=
  ∀ (c : Command) (s₁ s₂ t₁ t₂ : State),
    (∀ r ∈ c.reads, s₁.reg r = s₂.reg r) →
    (c.readsInput = true → ∀ a, a < s₁.inlen.toNat → s₁.ibuf.byte? a = s₂.ibuf.byte? a) →
    s₁.cfg = s₂.cfg → s₁.draws = s₂.draws →
    exec c.instr s₁ = .next t₁ → exec c.instr s₂ = .next t₂ →
    statusState t₁.status = statusState t₂.status ∧ statusErr t₁.status = statusErr t₂.status ∧
    t₁.outlen = t₂.outlen ∧ (∀ a, t₁.obuf.byte? a = t₂.obuf.byte? a) ∧ (∀ r ∈ c.writes, t₁.reg r = t₂.reg r)

/-- 20_memory.md R39: repeating a command with unchanged operands gives the same outcome, length, output bytes and, on a
success, result registers, where no draw enters: every input byte holds a value and the variant is not the half-float
one. -/
def Obligations.RepeatedCommandRepeatsItsOutcome : Prop :=
  ∀ (c : Command) (s t : State), exec c.instr s = .next t →
    (c.readsInput = true → ∀ a, a < s.inlen.toNat → (s.ibuf.byte? a).isSome = true) →
    c ≠ .pixDecode .a16b16g16r16f →
    ∃ u, exec c.instr t = .next u ∧ statusState u.status = statusState t.status ∧
      statusErr u.status = statusErr t.status ∧ u.outlen = t.outlen ∧ (∀ a, u.obuf.byte? a = t.obuf.byte? a) ∧
      (statusState t.status = stateDone → ∀ r ∈ c.writes, u.reg r = t.reg r)

/-- 40_catalog.md R79, 43_pixel_decode.md R133, 44_pixel_encode.md R138: each of the seven operations that take a variant,
given `INVALID`, raises `UNSUPPORTED_FORMAT` in every state, whatever the operands; `INVALID` resolves to (0, 0). -/
def Obligations.InvalidVariantAlwaysRaisesUnsupportedFormat : Prop :=
  (∀ i ∈ [Instr.catFourccINVALID, .catDxgiINVALID, .hdrBuildINVALID, .mipSizesINVALID, .mipTakeINVALID,
      .pixDecodeINVALID, .pixEncodeINVALID], ∀ s, Raises i s .unsupportedFormat) ∧
  (∀ c : Catalog, c.codes .invalid = ⟨0, 0⟩)

/-- 10_state.md R13, 60_exceptions.md R141: the ten exception codes, the status word an exception leaves (`0x102 + 16·code`)
and the two a success leaves. -/
def Obligations.StatusWordsAndExceptionCodes : Prop :=
  ([Exc.unsupportedFormat, .mipCountExceedsCapacity, .illegalCommand, .operandFault, .lengthFault, .layerRangeFault,
      .fieldOverflow, .capacityFault, .headerFault, .delegateFault].map fun e => e.code.toNat) =
    [1, 2, 3, 4, 5, 6, 7, 8, 9, 10] ∧
  (∀ (s : State) (e : Exc), (s.raise e).status.toNat = 0x102 + 16 * e.code.toNat) ∧
  (∀ (s : State) (out : List Byte), (s.finish out).status = if statusSticky s.status then 0x101 else 0x001)

/-- 10_state.md R15: a `LAYERS` of 0 or a negative one acts as 1 in every operation, and the register itself is not
changed. -/
def Obligations.NonPositiveLayerCountActsAsOne : Prop :=
  ∀ (c : Command) (s t : State), s.layers.toInt ≤ 0 → exec c.instr s = .next t →
    t.layers = s.layers ∧ exec c.instr { s with layers := 1 } = .next { t with layers := 1 }

/-! ### FormatCatalog -/

/-- 40_catalog.md R75: `CAT.FOURCC.v`: its word, its result, its exception. A result of 0 is a success. -/
def Obligations.CatFourccGivesTheFourCC : Prop :=
  ∀ (v : Variant) (s : State),
    (encode (Command.catFourcc v).instr).toNat = 0x01 + 256 * v.code ∧
    (v = .invalid → Raises (Command.catFourcc v).instr s .unsupportedFormat) ∧
    (v ≠ .invalid →
      ∃ t, Completes (Command.catFourcc v).instr s t [] [.rcode] ∧ t.rcode = (s.cfg.catalog.codes v).fourCC)

/-- 40_catalog.md R76: `CAT.DXGI.v`: its word, its result, its exception. A result of 0 is a success. -/
def Obligations.CatDxgiGivesTheDxgiCode : Prop :=
  ∀ (v : Variant) (s : State),
    (encode (Command.catDxgi v).instr).toNat = 0x02 + 256 * v.code ∧
    (v = .invalid → Raises (Command.catDxgi v).instr s .unsupportedFormat) ∧
    (v ≠ .invalid →
      ∃ t, Completes (Command.catDxgi v).instr s t [] [.rcode] ∧ t.rcode = (s.cfg.catalog.codes v).dxgi)

/-- 40_catalog.md R73, R77: `CAT.VFOURCC` under a well-formed configuration gives the code of the variant that carries
`CODE`, never that of `INVALID`; it raises `UNSUPPORTED_FORMAT` for 0, for a code no variant carries, and for the extension
sentinel. -/
def Obligations.CatVfourccInvertsTheFourCC : Prop :=
  (∀ (v : Variant) (s : State), s.cfg.Wf → v ≠ .invalid → s.code ≠ 0 → (s.cfg.catalog.codes v).fourCC = s.code →
    ∃ t, Completes .catVfourcc s t [] [.rvariant] ∧ t.rvariant.toNat = v.code ∧ t.rvariant.toNat ≤ 17) ∧
  (∀ s : State, (s.code = 0 ∨ ∀ v, v ≠ .invalid → (s.cfg.catalog.codes v).fourCC ≠ s.code) →
    Raises .catVfourcc s .unsupportedFormat) ∧
  (∀ s : State, s.cfg.Wf → s.code = s.cfg.extSentinel → Raises .catVfourcc s .unsupportedFormat) ∧
  encode .catVfourcc = 0x00000003

/-- 40_catalog.md R73, R78: `CAT.VDXGI`, the same for the DXGI codes. -/
def Obligations.CatVdxgiInvertsTheDxgiCode : Prop :=
  (∀ (v : Variant) (s : State), s.cfg.Wf → v ≠ .invalid → s.code ≠ 0 → (s.cfg.catalog.codes v).dxgi = s.code →
    ∃ t, Completes .catVdxgi s t [] [.rvariant] ∧ t.rvariant.toNat = v.code ∧ t.rvariant.toNat ≤ 17) ∧
  (∀ s : State, (s.code = 0 ∨ ∀ v, v ≠ .invalid → (s.cfg.catalog.codes v).dxgi ≠ s.code) →
    Raises .catVdxgi s .unsupportedFormat) ∧
  encode .catVdxgi = 0x00000004

/-- 40_catalog.md R71, 30_encoding.md R47: the variant codes, bits per pixel, minimum tile dimensions and, where the
format is not block-compressed, bytes per pixel. The spec marks the numbers as its own inference: "the numbers are read from
the class names". -/
def Obligations.VariantMetadataTable : Prop :=
  (Variant.real.map fun v => (v.code, bitsPerPixel v, minTile v)) =
    [(0, 4, 4), (1, 8, 4), (2, 8, 4), (3, 4, 4), (4, 8, 4), (5, 8, 4), (6, 32, 1), (7, 32, 1), (8, 16, 1), (9, 16, 1),
     (10, 8, 1), (11, 8, 1), (12, 16, 1), (13, 32, 1), (14, 32, 1), (15, 64, 1), (16, 64, 1), (17, 128, 1)] ∧
  ((Variant.real.drop 6).map bytesPerPixel) = [4, 4, 2, 2, 1, 1, 2, 4, 4, 8, 8, 16]

/-! ### HeaderBuilder -/

/-- 41_header.md R81: pitch or linear size and its flag, by format class. -/
def Obligations.PitchOrLinearSizeByClass : Prop :=
  ∀ (cfg : Config) (w h : Nat),
    (∀ v ∈ [Variant.dxt1, .bc4], pitchRule cfg v w h = (h * w / 2, cfg.flagLinearSize)) ∧
    (∀ v ∈ [Variant.dxt3, .dxt5, .bc5, .bc7], pitchRule cfg v w h = (h * w, cfg.flagLinearSize)) ∧
    (∀ v ∈ [Variant.l8, .a8], pitchRule cfg v w h = (w, cfg.flagPitch)) ∧
    (∀ v ∈ [Variant.a4r4g4b4, .a1r5g5b5, .d16], pitchRule cfg v w h = (w * 2, cfg.flagPitch)) ∧
    (∀ v ∈ [Variant.a8r8g8b8, .x8r8g8b8, .r32f, .g16r16f], pitchRule cfg v w h = (w * 4, cfg.flagPitch)) ∧
    (∀ v ∈ [Variant.g32r32f, .a16b16g16r16f], pitchRule cfg v w h = (w * 8, cfg.flagPitch)) ∧
    pitchRule cfg .a32b32g32r32f w h = (w * 16, cfg.flagPitch)

/-- 41_header.md R85: the pixel-format sub-block: the source's masks and bit counts for A8R8G8B8 and A1R5G5B5, the
configuration's cells for the four others, the FourCC flag alone for the rest. -/
def Obligations.PixelFormatByVariant : Prop :=
  ∀ cfg : Config,
    pixelFormatOf cfg .a8r8g8b8 = ⟨cfg.pf.a8r8g8b8Flags, 32, 0xFF0000, 0xFF00, 0xFF, 0xFF000000⟩ ∧
    pixelFormatOf cfg .a1r5g5b5 = ⟨cfg.pf.a1r5g5b5Flags, 16, 0x7C00, 0x03E0, 0x001F, 0x8000⟩ ∧
    pixelFormatOf cfg .x8r8g8b8 = cfg.pf.x8r8g8b8 ∧ pixelFormatOf cfg .a4r4g4b4 = cfg.pf.a4r4g4b4 ∧
    pixelFormatOf cfg .l8 = cfg.pf.l8 ∧ pixelFormatOf cfg .a8 = cfg.pf.a8 ∧
    (∀ v ∈ blockCompressed ++ [.d16, .r32f, .g16r16f, .g32r32f, .a16b16g16r16f, .a32b32g32r32f],
      pixelFormatOf cfg v = ⟨cfg.pfFourCC, 0, 0, 0, 0, 0⟩)

/-- 41_header.md R80 to R89, 30_encoding.md R55, R56: `HDR.BUILD.v` completes when its operands are valid, its codes resolve,
its pitch and its output fit; every field of the header and of the extension block, by offset. -/
def Obligations.HdrBuildWritesTheHeader : Prop :=
  ∀ (v : Variant) (s : State), v ≠ .invalid → BuildOperandsValid s → BuildResolves s v → buildPitch s v < 2 ^ 32 →
    (NeedsExt s v → OutputFits s.cfg 148) → (¬ NeedsExt s v → OutputFits s.cfg 128) →
    ∃ t b, Completes (Command.hdrBuild v).instr s t b [.rlayers, .rcode] ∧
      t.rlayers.toNat = s.layerCount ∧ t.rcode.toNat = buildPitch s v ∧
      fieldAt b 0 = 0x20534444 ∧ fieldAt b 4 = 124 ∧
      fieldAt b 8 = (s.cfg.flagsBase ||| (pitchRule s.cfg v s.width.toInt.toNat s.height.toInt.toNat).2).toNat ∧
      fieldAt b 12 = s.height.toNat ∧ fieldAt b 16 = s.width.toNat ∧ fieldAt b 20 = buildPitch s v ∧
      fieldAt b 24 = 0 ∧ fieldAt b 28 = s.mips.toNat ∧ (∀ k, 32 ≤ k → k < 76 → b[k]? = some 0) ∧
      fieldAt b 76 = 32 ∧
      (∀ pf, pf = (if NeedsExt s v ∧ s.cfg.pfExtOverride = true then ⟨s.cfg.pfFourCC, 0, 0, 0, 0, 0⟩
          else pixelFormatOf s.cfg v) →
        fieldAt b 80 = pf.flags.toNat ∧ fieldAt b 88 = pf.bitCount.toNat ∧ fieldAt b 92 = pf.rMask.toNat ∧
        fieldAt b 96 = pf.gMask.toNat ∧ fieldAt b 100 = pf.bMask.toNat ∧ fieldAt b 104 = pf.aMask.toNat) ∧
      fieldAt b 108 =
        (if 1 < s.mips.toInt then s.cfg.capsTexture ||| s.cfg.capsMipmap else s.cfg.capsTexture).toNat ∧
      (∀ k, 112 ≤ k → k < 128 → b[k]? = some 0) ∧
      (¬ NeedsExt s v → b.length = 128 ∧ fieldAt b 84 = (s.cfg.catalog.codes v).fourCC.toNat) ∧
      (NeedsExt s v → b.length = 148 ∧ fieldAt b 84 = s.cfg.extSentinel.toNat ∧
        fieldAt b 128 = (s.cfg.catalog.codes v).dxgi.toNat ∧ fieldAt b 132 = 3 ∧ fieldAt b 136 = 0 ∧
        fieldAt b 140 = s.layerCount ∧ fieldAt b 144 = 0)

/-- 41_header.md R89, R80, R87: the exceptions of `HDR.BUILD`, in the order R89 tests them. -/
def Obligations.HdrBuildExceptionsInOrder : Prop :=
  ∀ (v : Variant) (s : State), v ≠ .invalid →
    (¬ BuildOperandsValid s → Raises (Command.hdrBuild v).instr s .operandFault) ∧
    (BuildOperandsValid s → ¬ BuildResolves s v → Raises (Command.hdrBuild v).instr s .unsupportedFormat) ∧
    (BuildOperandsValid s → BuildResolves s v → 2 ^ 32 ≤ buildPitch s v →
      Raises (Command.hdrBuild v).instr s .fieldOverflow) ∧
    (BuildOperandsValid s → BuildResolves s v → buildPitch s v < 2 ^ 32 →
      ((NeedsExt s v ∧ ¬ fits 148 s.cfg.obufCap) ∨ (¬ NeedsExt s v ∧ ¬ fits 128 s.cfg.obufCap)) →
      Raises (Command.hdrBuild v).instr s .capacityFault)

/-- 41_header.md R92: `HDR.PARSE` completes on a header of either length whose fixed fields hold and whose code belongs to a
variant, where no two variants share a code (40_catalog.md R74 (a), (c)); the six result registers. -/
def Obligations.HdrParseReadsTheHeader : Prop :=
  ∀ (v : Variant) (s : State), s.cfg.FourCCsDistinct → s.cfg.DxgisDistinct → v ≠ .invalid →
    fits s.inlen.toNat s.cfg.ibufCap → HeaderFixedFields s →
    (128 ≤ s.inlen.toNat → inputField s 84 ≠ s.cfg.extSentinel.toNat → inputField s 84 ≠ 0 →
      (s.cfg.catalog.codes v).fourCC.toNat = inputField s 84 →
      ∃ t, Completes .hdrParse s t [] resultRegs ∧ t.rvariant.toNat = v.code ∧ t.rwidth.toNat = inputField s 16 ∧
        t.rheight.toNat = inputField s 12 ∧ t.rlayers = 1 ∧ t.rmips.toNat = inputField s 28 ∧ t.rcode = 128) ∧
    (148 ≤ s.inlen.toNat → inputField s 84 = s.cfg.extSentinel.toNat → inputField s 128 ≠ 0 →
      (s.cfg.catalog.codes v).dxgi.toNat = inputField s 128 →
      ∃ t, Completes .hdrParse s t [] resultRegs ∧ t.rvariant.toNat = v.code ∧ t.rwidth.toNat = inputField s 16 ∧
        t.rheight.toNat = inputField s 12 ∧
        t.rlayers.toNat = (if inputField s 140 = 0 ∨ 2 ^ 31 ≤ inputField s 140 then 1 else inputField s 140) ∧
        t.rmips.toNat = inputField s 28 ∧ t.rcode = 148)

/-- 41_header.md R92, R95: the exceptions of `HDR.PARSE`, in the order R92 tests them. -/
def Obligations.HdrParseExceptionsInOrder : Prop :=
  ∀ s : State,
    (¬ fits s.inlen.toNat s.cfg.ibufCap → Raises .hdrParse s .capacityFault) ∧
    (fits s.inlen.toNat s.cfg.ibufCap → s.inlen.toNat < 128 → Raises .hdrParse s .lengthFault) ∧
    (fits s.inlen.toNat s.cfg.ibufCap → 128 ≤ s.inlen.toNat → ¬ HeaderFixedFields s →
      Raises .hdrParse s .headerFault) ∧
    (fits s.inlen.toNat s.cfg.ibufCap → 128 ≤ s.inlen.toNat → HeaderFixedFields s →
      inputField s 84 = s.cfg.extSentinel.toNat → s.inlen.toNat < 148 → Raises .hdrParse s .lengthFault) ∧
    (fits s.inlen.toNat s.cfg.ibufCap → 148 ≤ s.inlen.toNat → HeaderFixedFields s →
      inputField s 84 = s.cfg.extSentinel.toNat →
      (inputField s 128 = 0 ∨ ∀ v, v ≠ .invalid → (s.cfg.catalog.codes v).dxgi.toNat ≠ inputField s 128) →
      Raises .hdrParse s .unsupportedFormat) ∧
    (fits s.inlen.toNat s.cfg.ibufCap → 128 ≤ s.inlen.toNat → HeaderFixedFields s →
      inputField s 84 ≠ s.cfg.extSentinel.toNat →
      (inputField s 84 = 0 ∨ ∀ v, v ≠ .invalid → (s.cfg.catalog.codes v).fourCC.toNat ≠ inputField s 84) →
      Raises .hdrParse s .unsupportedFormat)

/-- 41_header.md R93: a parse accepts any value in the fields it does not read: two inputs of one length that agree on the
fields it reads give the same outcome and results. That the result registers agree after an exception too rests on the
model's own draw counter, equal in both states (log entry 4): 60_exceptions.md R150 leaves them unspecified there. -/
def Obligations.HdrParseIgnoresTheFieldsItDoesNotRead : Prop :=
  ∀ s₁ s₂ t₁ t₂ : State, s₁.cfg = s₂.cfg → s₁.inlen = s₂.inlen → s₁.draws = s₂.draws →
    (∀ o ∈ [0, 4, 12, 16, 28, 76, 84, 128, 140], ∀ k < 4, s₁.ibufByte (o + k) = s₂.ibufByte (o + k)) →
    exec .hdrParse s₁ = .next t₁ → exec .hdrParse s₂ = .next t₂ →
    statusState t₁.status = statusState t₂.status ∧ statusErr t₁.status = statusErr t₂.status ∧
    (∀ r ∈ resultRegs, t₁.reg r = t₂.reg r)

/-- 41_header.md R94: the round trip. A header that `HDR.BUILD` completed under a configuration as 40_catalog.md R74 requires,
given back as the input of a state of the same configuration whose input capacity admits it, parses to the variant, width,
height, normalised layer count and mip count it was built from. The spec marks the property as derived from its rules R89,
R92, R73 and R74. -/
def Obligations.BuildThenParseRecoversTheOperands : Prop :=
  ∀ (v : Variant) (s t p : State), s.cfg.FourCCsDistinct → s.cfg.SentinelIsNoFourCC → s.cfg.DxgisDistinct →
    s.cfg.EveryVariantResolves → v ≠ .invalid →
    exec (Command.hdrBuild v).instr s = .next t → statusState t.status = stateDone →
    p.cfg = s.cfg → p.inlen = t.outlen → (∀ a, a < t.outlen.toNat → p.ibuf.byte? a = t.obuf.byte? a) →
    fits p.inlen.toNat p.cfg.ibufCap →
    ∃ u, Completes .hdrParse p u [] resultRegs ∧ u.rvariant.toNat = v.code ∧ u.rwidth = s.width ∧
      u.rheight = s.height ∧ u.rlayers.toNat = s.layerCount ∧ u.rmips = s.mips ∧ u.rcode = t.outlen

/-! ### MipPyramid -/

/-- 42_mip.md R100, R101: the level sequence: its length, each level's byte length, and its end at a 1×1 level; the depth is at
most 31 below 2^31. The closed form of the depth is an inference the spec marks as its own: "each pass halves the larger
dimension, rounding down, until it is 1". -/
def Obligations.LevelSequence : Prop :=
  ∀ (v : Variant) (w h : Nat), 1 ≤ w → 1 ≤ h →
    (levelSizes v w h).length = depth w h ∧
    (∀ k, k < depth w h → (levelSizes v w h)[k]? = some (levelBytes v w h k)) ∧
    (∃ l, (mipLevels v w h).getLast? = some l ∧ l.width = 1 ∧ l.height = 1) ∧
    (w < 2 ^ 31 → h < 2 ^ 31 → depth w h ≤ 31)

/-- 42_mip.md R104, as far as it follows from R100 (log entry 20): the division by 8 is exact for every variant but the two
4-bit block formats, and for those exactly when the two tile-raised dimensions are not both odd; no level is larger than
the first; at 256 by 256 every level of a 4-bit block format is a multiple of 8 bytes. -/
def Obligations.LevelSizesExactnessAndOrder : Prop :=
  ∀ (v : Variant) (w h k : Nat), v ≠ .invalid → 1 ≤ w → 1 ≤ h →
    let tw := max (minTile v) (max 1 (w / 2 ^ k))
    let th := max (minTile v) (max 1 (h / 2 ^ k))
    (v ≠ .dxt1 → v ≠ .bc4 → 8 ∣ tw * th * bitsPerPixel v) ∧
    (v = .dxt1 ∨ v = .bc4 → (8 ∣ tw * th * bitsPerPixel v ↔ ¬ (tw % 2 = 1 ∧ th % 2 = 1))) ∧
    levelBytes v w h k ≤ levelBytes v w h 0 ∧
    (v = .dxt1 ∨ v = .bc4 → 8 ∣ levelBytes v 256 256 k)

/-- 42_mip.md R102: `MIP.SIZES.v` completes for positive dimensions when the first size and the output fit; the words
written and `RMIPS`. -/
def Obligations.MipSizesWritesEveryLevel : Prop :=
  ∀ (v : Variant) (s : State), v ≠ .invalid → 0 < s.width.toInt → 0 < s.height.toInt →
    let w := s.width.toInt.toNat
    let h := s.height.toInt.toNat
    levelBytes v w h 0 < 2 ^ 32 → OutputFits s.cfg (4 * depth w h) →
    ∃ t out, Completes (Command.mipSizes v).instr s t out [.rmips] ∧ out.length = 4 * depth w h ∧
      (∀ k, k < depth w h → fieldAt out (4 * k) = levelBytes v w h k) ∧ t.rmips.toNat = depth w h

/-- 42_mip.md R103: `MIP.TAKE.v` completes for a count of at least 1 and at most the depth; the words written and
`RMIPS`. -/
def Obligations.MipTakeWritesTheRequestedLevels : Prop :=
  ∀ (v : Variant) (s : State), v ≠ .invalid → 0 < s.width.toInt → 0 < s.height.toInt → 1 ≤ s.mips.toInt →
    let w := s.width.toInt.toNat
    let h := s.height.toInt.toNat
    let n := s.mips.toInt.toNat
    n ≤ depth w h → levelBytes v w h 0 < 2 ^ 32 → OutputFits s.cfg (4 * n) →
    ∃ t out, Completes (Command.mipTake v).instr s t out [.rmips] ∧ out.length = 4 * n ∧
      (∀ k, k < n → fieldAt out (4 * k) = levelBytes v w h k) ∧ t.rmips.toNat = depth w h

/-- 42_mip.md R102, R103: the exceptions of `MIP.SIZES` and `MIP.TAKE`, in the order the rules test them. -/
def Obligations.MipExceptionsInOrder : Prop :=
  ∀ (v : Variant) (s : State), v ≠ .invalid →
    let w := s.width.toInt.toNat
    let h := s.height.toInt.toNat
    let n := s.mips.toInt.toNat
    let dims := 0 < s.width.toInt ∧ 0 < s.height.toInt
    (¬ dims → Raises (Command.mipSizes v).instr s .operandFault) ∧
    (dims → 2 ^ 32 ≤ levelBytes v w h 0 → Raises (Command.mipSizes v).instr s .fieldOverflow) ∧
    (dims → levelBytes v w h 0 < 2 ^ 32 → ¬ fits (4 * depth w h) s.cfg.obufCap →
      Raises (Command.mipSizes v).instr s .capacityFault) ∧
    ((¬ dims ∨ s.mips.toInt < 1) → Raises (Command.mipTake v).instr s .operandFault) ∧
    (dims → 1 ≤ s.mips.toInt → depth w h < n → Raises (Command.mipTake v).instr s .mipCountExceedsCapacity) ∧
    (dims → 1 ≤ s.mips.toInt → n ≤ depth w h → 2 ^ 32 ≤ levelBytes v w h 0 →
      Raises (Command.mipTake v).instr s .fieldOverflow) ∧
    (dims → 1 ≤ s.mips.toInt → n ≤ depth w h → levelBytes v w h 0 < 2 ^ 32 → ¬ fits (4 * n) s.cfg.obufCap →
      Raises (Command.mipTake v).instr s .capacityFault)

/-! ### PixelCodec decode -/

/-- 43_pixel_decode.md R114: `PIX.DECODE.A1R5G5B5`, pixel by pixel, with the layer selection of R112. -/
def Obligations.DecodeA1R5G5B5UnpacksEveryPixel : Prop :=
  ∀ s : State, DecodeReady s → s.inlen.toNat = 2 * pixelCount s →
    OutputFits s.cfg (sliceLength (4 * pixelCount s) s) →
    ∃ full, full.length = 4 * pixelCount s ∧ DecodesTo .a1r5g5b5 s full ∧
      ∀ i, i < pixelCount s → ∀ p, p = inputHalf s (2 * i) →
        full[4 * i]? = some (BitVec.ofNat 8 (p / 1024 % 32 * 8)) ∧
        full[4 * i + 1]? = some (BitVec.ofNat 8 (p / 32 % 32 * 8)) ∧
        full[4 * i + 2]? = some (BitVec.ofNat 8 (p % 32 * 8)) ∧
        full[4 * i + 3]? = some (BitVec.ofNat 8 (p / 32768 * 255))

/-- 43_pixel_decode.md R115, 90_conflicts.md C2, C3: `PIX.DECODE.A4R4G4B4`, for either value of `CFG.NIBBLE_SCALE`. -/
def Obligations.DecodeA4R4G4B4UnpacksEveryPixel : Prop :=
  ∀ s : State, DecodeReady s → s.inlen.toNat = 2 * pixelCount s →
    OutputFits s.cfg (sliceLength (4 * pixelCount s) s) →
    ∀ k, k = (if s.cfg.nibbleScale = .sixteen then 16 else 17) →
    ∃ full, full.length = 4 * pixelCount s ∧ DecodesTo .a4r4g4b4 s full ∧
      ∀ i, i < pixelCount s → ∀ p, p = inputHalf s (2 * i) →
        full[4 * i]? = some (BitVec.ofNat 8 (p / 256 % 16 * k)) ∧
        full[4 * i + 1]? = some (BitVec.ofNat 8 (p / 16 % 16 * k)) ∧
        full[4 * i + 2]? = some (BitVec.ofNat 8 (p % 16 * k)) ∧
        full[4 * i + 3]? = some (BitVec.ofNat 8 (p / 4096 * k))

/-- 43_pixel_decode.md R116, R117: `PIX.DECODE.L8` and `PIX.DECODE.A8` expand each byte v to (v, v, v, 255). -/
def Obligations.DecodeL8AndA8ExpandEveryByte : Prop :=
  ∀ v ∈ [Variant.l8, .a8], ∀ s : State, DecodeReady s → s.inlen.toNat = pixelCount s →
    OutputFits s.cfg (sliceLength (4 * pixelCount s) s) →
    ∃ full, full.length = 4 * pixelCount s ∧ DecodesTo v s full ∧
      ∀ i, i < pixelCount s →
        full[4 * i]? = some (s.ibufByte i) ∧ full[4 * i + 1]? = some (s.ibufByte i) ∧
        full[4 * i + 2]? = some (s.ibufByte i) ∧ full[4 * i + 3]? = some 255

/-- 43_pixel_decode.md R118: `PIX.DECODE.A8R8G8B8` swaps bytes 0 and 2 of every pixel. -/
def Obligations.DecodeA8R8G8B8SwapsEveryPixel : Prop :=
  ∀ s : State, DecodeReady s → s.inlen.toNat = 4 * pixelCount s →
    OutputFits s.cfg (sliceLength (4 * pixelCount s) s) →
    ∃ full, full.length = 4 * pixelCount s ∧ DecodesTo .a8r8g8b8 s full ∧
      ∀ i, i < pixelCount s →
        full[4 * i]? = some (s.ibufByte (4 * i + 2)) ∧ full[4 * i + 1]? = some (s.ibufByte (4 * i + 1)) ∧
        full[4 * i + 2]? = some (s.ibufByte (4 * i)) ∧ full[4 * i + 3]? = some (s.ibufByte (4 * i + 3))

/-- 43_pixel_decode.md R119, R120: `PIX.DECODE.A16B16G16R16F` converts the half-float at each position; nothing is said of
the byte a NaN gives (a free value). -/
def Obligations.DecodeA16B16G16R16FConvertsEveryChannel : Prop :=
  ∀ s : State, DecodeReady s → s.inlen.toNat = 8 * pixelCount s →
    OutputFits s.cfg (sliceLength (4 * pixelCount s) s) →
    ∃ full, full.length = 4 * pixelCount s ∧ DecodesTo .a16b16g16r16f s full ∧
      ∀ k, k < 4 * pixelCount s → ∀ h e f, h = inputHalf s (2 * k) → e = h / 1024 % 32 → f = h % 1024 →
        ¬ (e = 31 ∧ f ≠ 0) →
        (32768 ≤ h → full[k]? = some 0) ∧ (h < 32768 → 15 ≤ e → full[k]? = some 255) ∧
        (h < 32768 → e < 15 → ∀ m q, m = (if e = 0 then f else 1024 + f) → q = 25 - max e 1 →
          full[k]? = some (BitVec.ofNat 8 ((255 * m + 2 ^ (q - 1)) / 2 ^ q)))

/-- 43_pixel_decode.md R120: the conversion of a non-negative half-float below 1 is the nearest integer to 255 times its
value `m / 2^q`, a tie going up, and the conversion never decreases as a non-negative half-float grows. -/
def Obligations.HalfToByteIsNearestAndMonotone : Prop :=
  (∀ (nan : Byte) (h : Half), halfSign h = false → halfExp h < 15 →
    2 * (255 * halfSignificand h) < (2 * (halfToByte nan h).toNat + 1) * 2 ^ halfShift h ∧
    2 * (halfToByte nan h).toNat * 2 ^ halfShift h ≤ 2 * (255 * halfSignificand h) + 2 ^ halfShift h) ∧
  (∀ (nan : Byte) (h₁ h₂ : Half), h₁.toNat ≤ h₂.toNat → h₂.toNat ≤ 0x7C00 →
    (halfToByte nan h₁).toNat ≤ (halfToByte nan h₂).toNat)

/-- 43_pixel_decode.md R121 to R126: the six pass-through variants, with their words, return the input unchanged, of whatever
length, but for the layer selection. -/
def Obligations.DecodePassThroughReturnsTheInput : Prop :=
  ∀ v ∈ passedThrough,
    (encode (Command.pixDecode v).instr).toNat = 0x30 + 256 * v.code ∧
    ∀ s : State, DecodeReady s → OutputFits s.cfg (sliceLength s.inlen.toNat s) → DecodesTo v s (inputBytes s)

/-- 43_pixel_decode.md R113, R127 to R132: the six block-compressed variants return what the collaborator answers for the
input, the width, `H·L` rows and the variant, when it answers `W·H·L·4` bytes; a failure or another length raises
`DELEGATE_FAULT`; a target layer out of range and an output beyond the capacity raise their exceptions after that. How
the model holds the collaborator's answers is log entry 6. -/
def Obligations.DecodeBlockReturnsTheCollaboratorsAnswer : Prop :=
  ∀ v ∈ blockCompressed, ∀ s : State,
    let w := s.width.toInt.toNat
    let rows := s.height.toInt.toNat * s.layerCount
    (∀ r, DecodeReady s → blockDecompress s.cfg (inputBytes s) w rows v = some r → r.length = w * rows * 4 →
      OutputFits s.cfg (sliceLength r.length s) → DecodesTo v s r) ∧
    (0 < s.width.toInt → 0 < s.height.toInt → fits s.inlen.toNat s.cfg.ibufCap →
      (∀ r, blockDecompress s.cfg (inputBytes s) w rows v = some r → r.length ≠ w * rows * 4) →
      Raises (Command.pixDecode v).instr s .delegateFault) ∧
    (∀ r, 0 < s.width.toInt → 0 < s.height.toInt → fits s.inlen.toNat s.cfg.ibufCap →
      blockDecompress s.cfg (inputBytes s) w rows v = some r → r.length = w * rows * 4 →
      s.layerCount ≤ s.tlayer.toInt → Raises (Command.pixDecode v).instr s .layerRangeFault) ∧
    (∀ r, DecodeReady s → blockDecompress s.cfg (inputBytes s) w rows v = some r → r.length = w * rows * 4 →
      ¬ fits (sliceLength r.length s) s.cfg.obufCap → Raises (Command.pixDecode v).instr s .capacityFault)

/-- 43_pixel_decode.md R110, R111, R112: the exceptions of `PIX.DECODE` other than `DELEGATE_FAULT`, in the order R110 tests
them: the first two for every variant, the rest for the transforming and the pass-through variants. -/
def Obligations.DecodeExceptionsInOrder : Prop :=
  ∀ (v : Variant) (s : State), v ≠ .invalid →
    let dims := 0 < s.width.toInt ∧ 0 < s.height.toInt
    let lengthRight := v ∈ transformed → s.inlen.toNat = pixelCount s * bytesPerPixel v
    let n := if v ∈ transformed then 4 * pixelCount s else s.inlen.toNat
    (¬ dims → Raises (Command.pixDecode v).instr s .operandFault) ∧
    (dims → ¬ fits s.inlen.toNat s.cfg.ibufCap → Raises (Command.pixDecode v).instr s .capacityFault) ∧
    (dims → fits s.inlen.toNat s.cfg.ibufCap → ¬ lengthRight → Raises (Command.pixDecode v).instr s .lengthFault) ∧
    (v ∉ blockCompressed → dims → fits s.inlen.toNat s.cfg.ibufCap → lengthRight → s.layerCount ≤ s.tlayer.toInt →
      Raises (Command.pixDecode v).instr s .layerRangeFault) ∧
    (v ∉ blockCompressed → DecodeReady s → lengthRight → ¬ fits (sliceLength n s) s.cfg.obufCap →
      Raises (Command.pixDecode v).instr s .capacityFault)

/-- 00_scope.md R8 read of `OUTLEN` (DEDUCED, the model's choice: log entry 12): a decode whose output is within the capacity
but 2^32 bytes or more raises `FIELD_OVERFLOW`, be it a transforming one or a block-compressed one with such an answer; a
pass-through decode has no such output. -/
def Obligations.DecodeOutputBeyondOutlenOverflows : Prop :=
  ∀ (v : Variant) (s : State), DecodeReady s →
    (v ∈ transformed → s.inlen.toNat = pixelCount s * bytesPerPixel v →
      fits (sliceLength (4 * pixelCount s) s) s.cfg.obufCap → 2 ^ 32 ≤ sliceLength (4 * pixelCount s) s →
      Raises (Command.pixDecode v).instr s .fieldOverflow) ∧
    (v ∈ blockCompressed → ∀ r w rows, w = s.width.toInt.toNat → rows = s.height.toInt.toNat * s.layerCount →
      blockDecompress s.cfg (inputBytes s) w rows v = some r → r.length = w * rows * 4 →
      fits (sliceLength r.length s) s.cfg.obufCap → 2 ^ 32 ≤ sliceLength r.length s →
      Raises (Command.pixDecode v).instr s .fieldOverflow) ∧
    (v ∈ passedThrough → sliceLength s.inlen.toNat s < 2 ^ 32)

/-- 43_pixel_decode.md R134: in a transforming stage 1, output pixel `i` is a function of input pixel `i` alone: two inputs
of one length that agree on that pixel's bytes give the same four output bytes, and the dimensions matter only through the
pixel count; a pass-through stage 1 gives back its input. For a half-float NaN, whose byte 43_pixel_decode.md R120 leaves a
draw, the equal bytes rest on both inputs having the model's same draw number (log entry 4). -/
def Obligations.OutputPixelDependsOnItsInputPixelOnly : Prop :=
  (∀ v ∈ transformed, ∀ (cfg : Config) (draw w₁ h₁ l₁ w₂ h₂ l₂ : Nat) (in₁ in₂ out₁ out₂ : List Byte) (i : Nat),
    w₁ * h₁ * l₁ = w₂ * h₂ * l₂ →
    in₁.length = w₁ * h₁ * l₁ * bytesPerPixel v → in₂.length = in₁.length → i < w₁ * h₁ * l₁ →
    (∀ k, k < bytesPerPixel v → in₁[bytesPerPixel v * i + k]? = in₂[bytesPerPixel v * i + k]?) →
    stage1 cfg draw in₁ w₁ h₁ l₁ v = .ok out₁ → stage1 cfg draw in₂ w₂ h₂ l₂ v = .ok out₂ →
    ∀ c, c < 4 → out₁[4 * i + c]? = out₂[4 * i + c]?) ∧
  (∀ v ∈ passedThrough, ∀ (cfg : Config) (draw w h l : Nat) (input : List Byte),
    stage1 cfg draw input w h l v = .ok input)

/-! ### PixelCodec encode -/

/-- 44_pixel_encode.md R139: `Swap02` by position, and that it is its own inverse. -/
def Obligations.SwapIsPositionalAndSelfInverse : Prop :=
  ∀ b : List Byte, b.length % 4 = 0 →
    (swap02 b).length = b.length ∧ swap02 (swap02 b) = b ∧
    ∀ i, i < b.length / 4 →
      (swap02 b)[4 * i]? = b[4 * i + 2]? ∧ (swap02 b)[4 * i + 1]? = b[4 * i + 1]? ∧
      (swap02 b)[4 * i + 2]? = b[4 * i]? ∧ (swap02 b)[4 * i + 3]? = b[4 * i + 3]?

/-- 44_pixel_encode.md R135, R136, R137: `PIX.ENCODE.v`, with its word, completes; the output is the input, swapped for
A8R8G8B8 with more than one layer, in which case the length must be a multiple of 4. -/
def Obligations.EncodeCopiesOrSwaps : Prop :=
  ∀ (v : Variant) (s : State), v ≠ .invalid → fits s.inlen.toNat s.cfg.ibufCap → OutputFits s.cfg s.inlen.toNat →
    (encode (Command.pixEncode v).instr).toNat = 0x31 + 256 * v.code ∧
    (v ≠ .a8r8g8b8 ∨ s.layerCount = 1 → ∃ t, Completes (Command.pixEncode v).instr s t (inputBytes s) []) ∧
    (v = .a8r8g8b8 → 1 < s.layerCount → s.inlen.toNat % 4 = 0 →
      ∃ t out, Completes (Command.pixEncode v).instr s t out [] ∧ out.length = s.inlen.toNat ∧
        ∀ i, 4 * i < s.inlen.toNat →
          out[4 * i]? = some (s.ibufByte (4 * i + 2)) ∧ out[4 * i + 1]? = some (s.ibufByte (4 * i + 1)) ∧
          out[4 * i + 2]? = some (s.ibufByte (4 * i)) ∧ out[4 * i + 3]? = some (s.ibufByte (4 * i + 3)))

/-- 44_pixel_encode.md R135, R136: the exceptions of `PIX.ENCODE`, in the order R135 tests them. -/
def Obligations.EncodeExceptionsInOrder : Prop :=
  ∀ (v : Variant) (s : State), v ≠ .invalid →
    let swapLengthWrong := v = .a8r8g8b8 ∧ 1 < s.layerCount ∧ s.inlen.toNat % 4 ≠ 0
    (¬ fits s.inlen.toNat s.cfg.ibufCap → Raises (Command.pixEncode v).instr s .capacityFault) ∧
    (fits s.inlen.toNat s.cfg.ibufCap → swapLengthWrong → Raises (Command.pixEncode v).instr s .lengthFault) ∧
    (fits s.inlen.toNat s.cfg.ibufCap → ¬ swapLengthWrong → ¬ fits s.inlen.toNat s.cfg.obufCap →
      Raises (Command.pixEncode v).instr s .capacityFault)

/-- 44_pixel_encode.md section 4: decoding, with no layer extraction, what `PIX.ENCODE.A8R8G8B8` completed on a buffer of more
than one layer and of the right length gives back the original buffer. -/
def Obligations.EncodeThenDecodeA8R8G8B8IsTheIdentity : Prop :=
  ∀ s t p : State, exec .pixEncodeA8R8G8B8 s = .next t → statusState t.status = stateDone → 1 < s.layerCount →
    DecodeReady p → p.tlayer.toInt < 0 → p.layers = s.layers → p.inlen = t.outlen →
    s.inlen.toNat = 4 * pixelCount p → OutputFits p.cfg (4 * pixelCount p) →
    (∀ a, a < t.outlen.toNat → p.ibuf.byte? a = t.obuf.byte? a) →
    ∃ u, Completes .pixDecodeA8R8G8B8 p u (inputBytes s) []

/-! ### Host programs -/

/-- 30_encoding.md R67: the pseudo-instruction `Build(v, w, h, l, m)`, run from any state with no action pending and a
well-formed configuration, is `HDR.BUILD.v` on that state with the four operands written; `Parse(bytes)` is `HDR.PARSE` on a
state that holds the bytes. How a program is loaded is log entry 2. -/
def Obligations.PseudoInstructionsRunTheirCommand : Prop :=
  (∀ (s : State) (v : Variant) (w h l m : Int), s.pending = [] → s.cfg.Wf →
    Sys2Proof.core.run 5 (s.load (pseudoLines (.build v w h l m))) =
      exec (Command.hdrBuild v).instr
        { s with
          width := BitVec.ofInt 32 w, height := BitVec.ofInt 32 h, layers := BitVec.ofInt 32 l,
          mips := BitVec.ofInt 32 m, cmd := encode (Command.hdrBuild v).instr }) ∧
  (∀ (s : State) (bytes : List Byte), s.pending = [] → s.cfg.Wf → fits bytes.length s.cfg.ibufCap →
    bytes.length < 2 ^ 32 →
    ∃ p : State, Sys2Proof.core.run (bytes.length + 2) (s.load (pseudoLines (.parse bytes))) = exec .hdrParse p ∧
      p.inlen.toNat = bytes.length ∧ p.cmd = 0x00000011 ∧
      (∀ a, a < bytes.length → p.ibuf.byte? a = bytes[a]?) ∧
      (∀ a, bytes.length ≤ a → p.ibuf.byte? a = s.ibuf.byte? a) ∧
      (∀ r, r ≠ .cmd → r ≠ .inlen → p.reg r = s.reg r) ∧ p.obuf = s.obuf ∧ p.cfg = s.cfg ∧ p.pending = [] ∧
      p.returned = s.returned ∧ p.draws = s.draws)
end

