-- ==== Sys2Proof/Laws/Catalog.lean ====
section
/-! SUPPORT. The catalog's lookups (40_catalog.md R73, R74). -/

namespace Sys2Proof.Machine

/-- Every variant but `INVALID` is listed (30_encoding.md R47). -/
theorem mem_real {v : Variant} : v ∈ Variant.real ↔ v ≠ .invalid := by
  cases v <;> simp [Variant.real]

/-- `INVALID` has the code pair (0, 0) (R74 (e)). -/
@[simp] theorem codes_invalid (c : Catalog) : c.codes .invalid = ⟨0, 0⟩ := rfl

/-- A column of codes with no repeated non-zero entry determines the variant. -/
theorem eq_of_codes_nodup {f : Variant → Word} (h : ((Variant.real.map f).filter (· ≠ 0)).Nodup)
    {u v : Variant} (hu : u ∈ Variant.real) (hv : v ∈ Variant.real) (h0 : f u ≠ 0) (huv : f u = f v) : u = v := by
  have key : ∀ l : List Variant, ((l.map f).filter (· ≠ 0)).Nodup → u ∈ l → v ∈ l → u = v := by
    intro l
    induction l with
    | nil => intro _ hu; simp at hu
    | cons a l ih =>
      intro hn hu hv
      have hmem : ∀ x ∈ l, f x ≠ 0 → f x ∈ (l.map f).filter (· ≠ 0) := fun x hx h =>
        List.mem_filter.2 ⟨List.mem_map_of_mem hx, by simpa using h⟩
      by_cases ha : f a = 0
      · have hu' : u ∈ l := (List.mem_cons.1 hu).resolve_left fun e => h0 (e ▸ ha)
        have hv' : v ∈ l := (List.mem_cons.1 hv).resolve_left fun e => h0 (huv.trans (e ▸ ha))
        refine ih ?_ hu' hv'
        simpa [ha] using hn
      · have hn' : f a ∉ (l.map f).filter (· ≠ 0) ∧ ((l.map f).filter (· ≠ 0)).Nodup := by
          have h1 : (f a :: l.map f).filter (· ≠ 0) = f a :: (l.map f).filter (· ≠ 0) :=
            List.filter_cons_of_pos (by simpa using ha)
          rw [List.map_cons, h1, List.nodup_cons] at hn
          exact hn
        rcases List.mem_cons.1 hu with rfl | hu' <;> rcases List.mem_cons.1 hv with rfl | hv'
        · rfl
        · exact absurd (huv ▸ hmem v hv' (huv ▸ h0)) hn'.1
        · exact absurd (huv ▸ hmem u hu' h0) hn'.1
        · exact ih hn'.2 hu' hv'
  exact key _ h hu hv

/-- A search for a code that one variant carries finds that variant. -/
theorem find?_code {f : Variant → Word} (h : ((Variant.real.map f).filter (· ≠ 0)).Nodup) {v : Variant}
    (hv : v ∈ Variant.real) (h0 : f v ≠ 0) : Variant.real.find? (fun u => f u = f v) = some v := by
  cases hf : Variant.real.find? (fun u => f u = f v) with
  | none => simpa using List.find?_eq_none.1 hf v hv
  | some u =>
    have hu := List.mem_of_find?_eq_some hf
    have hc : f u = f v := by simpa using List.find?_some hf
    rw [eq_of_codes_nodup h hu hv (hc ▸ h0) hc]

/-- The reverse FourCC table inverts the forward one (R73, R74 (a)). -/
theorem variantOfFourCC_codes {cfg : Config} (h : cfg.FourCCsDistinct) {v : Variant} (hv : v ≠ .invalid)
    (h0 : (cfg.catalog.codes v).fourCC ≠ 0) : variantOfFourCC cfg (cfg.catalog.codes v).fourCC = some v := by
  unfold variantOfFourCC
  rw [if_neg h0]
  exact find?_code h (mem_real.2 hv) h0

/-- The reverse DXGI table inverts the forward one (R73, R74 (c)). -/
theorem variantOfDxgi_codes {cfg : Config} (h : cfg.DxgisDistinct) {v : Variant} (hv : v ≠ .invalid)
    (h0 : (cfg.catalog.codes v).dxgi ≠ 0) : variantOfDxgi cfg (cfg.catalog.codes v).dxgi = some v := by
  unfold variantOfDxgi
  rw [if_neg h0]
  exact find?_code h (mem_real.2 hv) h0

/-- The reverse FourCC table has no entry exactly for 0 and for codes no variant carries (R73). -/
theorem variantOfFourCC_eq_none_iff (cfg : Config) (c : Word) :
    variantOfFourCC cfg c = none ↔ c = 0 ∨ ∀ v, v ≠ .invalid → (cfg.catalog.codes v).fourCC ≠ c := by
  unfold variantOfFourCC
  split_ifs with h
  · simp [h]
  · simp only [List.find?_eq_none, mem_real, decide_eq_true_eq]
    exact ⟨.inr, fun h' => h'.resolve_left h⟩

/-- The reverse DXGI table has no entry exactly for 0 and for codes no variant carries (R73). -/
theorem variantOfDxgi_eq_none_iff (cfg : Config) (c : Word) :
    variantOfDxgi cfg c = none ↔ c = 0 ∨ ∀ v, v ≠ .invalid → (cfg.catalog.codes v).dxgi ≠ c := by
  unfold variantOfDxgi
  split_ifs with h
  · simp [h]
  · simp only [List.find?_eq_none, mem_real, decide_eq_true_eq]
    exact ⟨.inr, fun h' => h'.resolve_left h⟩

/-- What a reverse FourCC lookup finds carries the code and is not `INVALID` (R73). -/
theorem variantOfFourCC_spec {cfg : Config} {c : Word} {v : Variant} (h : variantOfFourCC cfg c = some v) :
    v ≠ .invalid ∧ (cfg.catalog.codes v).fourCC = c ∧ c ≠ 0 := by
  unfold variantOfFourCC at h
  split_ifs at h with h0
  exact ⟨mem_real.1 (List.mem_of_find?_eq_some h), by simpa using List.find?_some h, h0⟩

/-- What a reverse DXGI lookup finds carries the code and is not `INVALID` (R73). -/
theorem variantOfDxgi_spec {cfg : Config} {c : Word} {v : Variant} (h : variantOfDxgi cfg c = some v) :
    v ≠ .invalid ∧ (cfg.catalog.codes v).dxgi = c ∧ c ≠ 0 := by
  unfold variantOfDxgi at h
  split_ifs at h with h0
  exact ⟨mem_real.1 (List.mem_of_find?_eq_some h), by simpa using List.find?_some h, h0⟩

end Sys2Proof.Machine
end

