-- ==== Sys2Proof/Laws/Decode.lean ====
section
/-! SUPPORT. The fields of a command word, the variant codes and the operation codes (30_encoding.md R46 to R49). -/

namespace Sys2Proof

/-- The three fields as digits of the word's number (R46). -/
theorem fields_toNat (w : Word) :
    opField w = w.toNat % 256 ∧ varField w = w.toNat / 256 % 256 ∧ zeroField w = w.toNat / 65536 := by
  simp only [zeroField, opField, varField, BitVec.extractLsb'_toNat, Nat.shiftRight_eq_div_pow, true_and]
  have := w.isLt
  omega

/-- A word with no high bit set is the number of its two other fields (R46). -/
theorem toNat_of_zeroField {w : Word} (h : zeroField w = 0) : w.toNat = opField w + 256 * varField w := by
  obtain ⟨h1, h2, h3⟩ := fields_toNat w
  omega

/-- The word of a command is the number of its two fields (R46, R48). -/
theorem toNat_encode (c : Command) : (encode c.instr).toNat = c.opCode + 256 * c.varCode := by
  cases c <;> first | rfl | (rename_i v; cases v <;> rfl)

/-- A variant is found by its code, and by no other number (R47). -/
theorem Variant.ofCode_eq_some_iff (n : Nat) (v : Variant) : Variant.ofCode n = some v ↔ n = v.code := by
  constructor
  · intro h
    unfold Variant.ofCode at h
    split at h <;> cases h <;> rfl
  · rintro rfl
    cases v <;> rfl

/-- No variant has a code above 18 (R49). -/
theorem Variant.ofCode_eq_none {n : Nat} (h : 18 < n) : Variant.ofCode n = none := by
  unfold Variant.ofCode
  split <;> simp_all

/-- Every code up to 18 is a variant's (R47, R49). -/
theorem Variant.exists_ofCode {n : Nat} (h : n ≤ 18) : ∃ v, Variant.ofCode n = some v := by
  interval_cases n <;> exact ⟨_, rfl⟩

/-- A number that no operation has (R48, R49 (b)). -/
theorem operationOf_eq_none {n : Nat} (h1 : n ∉ [0x01, 0x02, 0x10, 0x20, 0x21, 0x30, 0x31])
    (h2 : n ∉ [0x03, 0x04, 0x11]) : operationOf n = none := by
  unfold operationOf
  split <;> simp_all

end Sys2Proof
end

