-- ==== Sys2Proof/Laws/Memory.lean ====
section
/-! SUPPORT. The buffers: reading after writing, and that every operation keeps the canonical form. -/

namespace Sys2Proof.Machine

@[simp] theorem Memory.byte?_nil (a : Nat) : Memory.byte? [] a = none := rfl

/-- A byte written is read back. -/
theorem Memory.byte?_put_self (m : Memory) (a : Nat) (b : Byte) : (m.put a b).byte? a = some b := by
  induction m with
  | nil => simp [Memory.put, Memory.byte?]
  | cons c m ih =>
    obtain ⟨k, v⟩ := c
    unfold Memory.put
    split_ifs with h1 h2
    · simp [Memory.byte?]
    · simp [Memory.byte?]
    · simp [Memory.byte?, Ne.symm h2, ih]

/-- A write leaves every other byte alone. -/
theorem Memory.byte?_put_ne (m : Memory) (b : Byte) {a x : Nat} (h : x ≠ a) :
    (m.put a b).byte? x = m.byte? x := by
  induction m with
  | nil => simp [Memory.put, Memory.byte?, Ne.symm h]
  | cons c m ih =>
    obtain ⟨k, v⟩ := c
    unfold Memory.put
    split_ifs with h1 h2
    · simp [Memory.byte?, Ne.symm h]
    · subst h2; simp [Memory.byte?, Ne.symm h]
    · simp [Memory.byte?, ih]

/-- The cells of a written buffer: the new one and old ones. -/
theorem Memory.mem_put {m : Memory} {a : Nat} {b : Byte} {c : Host.Cell} (h : c ∈ m.put a b) : c = (a, b) ∨ c ∈ m := by
  induction m with
  | nil => simpa [Memory.put] using h
  | cons d m ih =>
    obtain ⟨k, v⟩ := d
    unfold Memory.put at h
    split_ifs at h with h1 h2
    · simpa using h
    · simp only [List.mem_cons] at h ⊢; tauto
    · simp only [List.mem_cons] at h ⊢
      rcases h with h | h
      · tauto
      · rcases ih h with h | h <;> tauto

/-- A write keeps the canonical form. -/
theorem Memory.put_wf {m : Memory} (a : Nat) (b : Byte) (h : m.wf) : (m.put a b).wf := by
  induction m with
  | nil => simp [Memory.put, Memory.wf]
  | cons c m ih =>
    obtain ⟨k, v⟩ := c
    simp only [Memory.wf, List.map_cons, List.pairwise_cons] at h
    obtain ⟨hk, hm⟩ := h
    unfold Memory.put
    split_ifs with h1 h2
    · simp only [Memory.wf, List.map_cons, List.pairwise_cons, List.mem_cons]
      refine ⟨?_, hk, hm⟩
      rintro x (rfl | hx)
      · exact h1
      · exact h1.trans (hk x hx)
    · subst h2
      simp only [Memory.wf, List.map_cons, List.pairwise_cons]
      exact ⟨hk, hm⟩
    · simp only [Memory.wf, List.map_cons, List.pairwise_cons]
      refine ⟨fun x hx => ?_, ih hm⟩
      obtain ⟨⟨x', v'⟩, hc, rfl⟩ := List.mem_map.1 hx
      rcases Memory.mem_put hc with h | h
      · cases h; simp only; omega
      · exact hk _ (List.mem_map_of_mem h)

/-- The indices a buffer of consecutive bytes lists. -/
theorem Memory.keys_ofBytes (bs : List Byte) (a : Nat) :
    (Memory.ofBytes a bs).map Prod.fst = List.range' a bs.length := by
  induction bs generalizing a with
  | nil => rfl
  | cons b bs ih => simp [Memory.ofBytes, ih, List.range'_succ]

/-- A buffer of consecutive bytes has the canonical form. -/
theorem Memory.ofBytes_wf (a : Nat) (bs : List Byte) : (Memory.ofBytes a bs).wf := by
  rw [Memory.wf, Memory.keys_ofBytes]
  exact List.pairwise_lt_range'

/-- What a buffer of consecutive bytes holds at an index. -/
theorem Memory.byte?_ofBytes (bs : List Byte) (a i : Nat) :
    (Memory.ofBytes a bs).byte? i = if a ≤ i then bs[i - a]? else none := by
  induction bs generalizing a with
  | nil => simp [Memory.ofBytes]
  | cons b bs ih =>
    simp only [Memory.ofBytes, Memory.byte?, ih]
    split_ifs with h1 h2 h3 h3
    · subst h1; simp
    · omega
    · rw [show i - a = (i - (a + 1)) + 1 by omega]; rfl
    · omega
    · omega
    · rfl

/-- What a buffer that starts at index 0 holds. -/
@[simp] theorem Memory.byte?_ofBytes_zero (bs : List Byte) (i : Nat) : (Memory.ofBytes 0 bs).byte? i = bs[i]? := by
  simp [Memory.byte?_ofBytes]

/-- `MemRead` gives as many bytes as it is asked for (20_memory.md R40). -/
@[simp] theorem State.length_memRead (s : State) (a n : Nat) : (s.memRead a n).length = n := by
  simp [State.memRead]

/-- The byte at a position of `MemRead(0, n)`. -/
theorem State.getElem_memRead (s : State) (n i : Nat) (h : i < (s.memRead 0 n).length) :
    (s.memRead 0 n)[i] = s.ibufByte i := by
  simp [State.memRead]

end Sys2Proof.Machine
end

