-- ==== Sys2Proof/Laws/State.lean ====
section
/-! SUPPORT. One lemma per field per state update, so that no proof unfolds a record update. -/

namespace Sys2Proof.Machine

/-! ### `State.raise` (60_exceptions.md R150) -/

@[simp] theorem State.raise_cmd (s : State) (e : Exc) : (s.raise e).cmd = s.cmd := rfl
@[simp] theorem State.raise_width (s : State) (e : Exc) : (s.raise e).width = s.width := rfl
@[simp] theorem State.raise_height (s : State) (e : Exc) : (s.raise e).height = s.height := rfl
@[simp] theorem State.raise_layers (s : State) (e : Exc) : (s.raise e).layers = s.layers := rfl
@[simp] theorem State.raise_mips (s : State) (e : Exc) : (s.raise e).mips = s.mips := rfl
@[simp] theorem State.raise_tlayer (s : State) (e : Exc) : (s.raise e).tlayer = s.tlayer := rfl
@[simp] theorem State.raise_inlen (s : State) (e : Exc) : (s.raise e).inlen = s.inlen := rfl
@[simp] theorem State.raise_code (s : State) (e : Exc) : (s.raise e).code = s.code := rfl
@[simp] theorem State.raise_status (s : State) (e : Exc) : (s.raise e).status = statusAfterError e := rfl
@[simp] theorem State.raise_outlen (s : State) (e : Exc) : (s.raise e).outlen = 0 := rfl
@[simp] theorem State.raise_rvariant (s : State) (e : Exc) : (s.raise e).rvariant = Config.freeResult s.draws (regNumber .rvariant) := rfl
@[simp] theorem State.raise_rwidth (s : State) (e : Exc) : (s.raise e).rwidth = Config.freeResult s.draws (regNumber .rwidth) := rfl
@[simp] theorem State.raise_rheight (s : State) (e : Exc) : (s.raise e).rheight = Config.freeResult s.draws (regNumber .rheight) := rfl
@[simp] theorem State.raise_rlayers (s : State) (e : Exc) : (s.raise e).rlayers = Config.freeResult s.draws (regNumber .rlayers) := rfl
@[simp] theorem State.raise_rmips (s : State) (e : Exc) : (s.raise e).rmips = Config.freeResult s.draws (regNumber .rmips) := rfl
@[simp] theorem State.raise_rcode (s : State) (e : Exc) : (s.raise e).rcode = Config.freeResult s.draws (regNumber .rcode) := rfl
@[simp] theorem State.raise_ibuf (s : State) (e : Exc) : (s.raise e).ibuf = s.ibuf := rfl
@[simp] theorem State.raise_obuf (s : State) (e : Exc) : (s.raise e).obuf = [] := rfl
@[simp] theorem State.raise_cfg (s : State) (e : Exc) : (s.raise e).cfg = s.cfg := rfl
@[simp] theorem State.raise_pending (s : State) (e : Exc) : (s.raise e).pending = s.pending := rfl
@[simp] theorem State.raise_returned (s : State) (e : Exc) : (s.raise e).returned = s.returned := rfl
@[simp] theorem State.raise_draws (s : State) (e : Exc) : (s.raise e).draws = s.draws + 1 := rfl

/-! ### `State.finish` (10_state.md R20, R25) -/

@[simp] theorem State.finish_cmd (s : State) (out : List Byte) : (s.finish out).cmd = s.cmd := rfl
@[simp] theorem State.finish_width (s : State) (out : List Byte) : (s.finish out).width = s.width := rfl
@[simp] theorem State.finish_height (s : State) (out : List Byte) : (s.finish out).height = s.height := rfl
@[simp] theorem State.finish_layers (s : State) (out : List Byte) : (s.finish out).layers = s.layers := rfl
@[simp] theorem State.finish_mips (s : State) (out : List Byte) : (s.finish out).mips = s.mips := rfl
@[simp] theorem State.finish_tlayer (s : State) (out : List Byte) : (s.finish out).tlayer = s.tlayer := rfl
@[simp] theorem State.finish_inlen (s : State) (out : List Byte) : (s.finish out).inlen = s.inlen := rfl
@[simp] theorem State.finish_code (s : State) (out : List Byte) : (s.finish out).code = s.code := rfl
@[simp] theorem State.finish_status (s : State) (out : List Byte) : (s.finish out).status = statusAfterDone s.status := rfl
@[simp] theorem State.finish_outlen (s : State) (out : List Byte) : (s.finish out).outlen = BitVec.ofNat 32 out.length := rfl
@[simp] theorem State.finish_rvariant (s : State) (out : List Byte) : (s.finish out).rvariant = s.rvariant := rfl
@[simp] theorem State.finish_rwidth (s : State) (out : List Byte) : (s.finish out).rwidth = s.rwidth := rfl
@[simp] theorem State.finish_rheight (s : State) (out : List Byte) : (s.finish out).rheight = s.rheight := rfl
@[simp] theorem State.finish_rlayers (s : State) (out : List Byte) : (s.finish out).rlayers = s.rlayers := rfl
@[simp] theorem State.finish_rmips (s : State) (out : List Byte) : (s.finish out).rmips = s.rmips := rfl
@[simp] theorem State.finish_rcode (s : State) (out : List Byte) : (s.finish out).rcode = s.rcode := rfl
@[simp] theorem State.finish_ibuf (s : State) (out : List Byte) : (s.finish out).ibuf = s.ibuf := rfl
@[simp] theorem State.finish_obuf (s : State) (out : List Byte) : (s.finish out).obuf = Memory.ofBytes 0 out := rfl
@[simp] theorem State.finish_cfg (s : State) (out : List Byte) : (s.finish out).cfg = s.cfg := rfl
@[simp] theorem State.finish_pending (s : State) (out : List Byte) : (s.finish out).pending = s.pending := rfl
@[simp] theorem State.finish_returned (s : State) (out : List Byte) : (s.finish out).returned = s.returned := rfl
@[simp] theorem State.finish_draws (s : State) (out : List Byte) : (s.finish out).draws = s.draws + 1 := rfl

/-! ### `State.applyReset` (10_state.md R22) -/

@[simp] theorem State.applyReset_cmd (s : State) : s.applyReset.cmd = 0 := rfl
@[simp] theorem State.applyReset_width (s : State) : s.applyReset.width = 0 := rfl
@[simp] theorem State.applyReset_height (s : State) : s.applyReset.height = 0 := rfl
@[simp] theorem State.applyReset_layers (s : State) : s.applyReset.layers = 0 := rfl
@[simp] theorem State.applyReset_mips (s : State) : s.applyReset.mips = 0 := rfl
@[simp] theorem State.applyReset_tlayer (s : State) : s.applyReset.tlayer = 0xFFFFFFFF := rfl
@[simp] theorem State.applyReset_inlen (s : State) : s.applyReset.inlen = 0 := rfl
@[simp] theorem State.applyReset_code (s : State) : s.applyReset.code = 0 := rfl
@[simp] theorem State.applyReset_status (s : State) : s.applyReset.status = 0 := rfl
@[simp] theorem State.applyReset_outlen (s : State) : s.applyReset.outlen = 0 := rfl
@[simp] theorem State.applyReset_rvariant (s : State) : s.applyReset.rvariant = 0 := rfl
@[simp] theorem State.applyReset_rwidth (s : State) : s.applyReset.rwidth = 0 := rfl
@[simp] theorem State.applyReset_rheight (s : State) : s.applyReset.rheight = 0 := rfl
@[simp] theorem State.applyReset_rlayers (s : State) : s.applyReset.rlayers = 0 := rfl
@[simp] theorem State.applyReset_rmips (s : State) : s.applyReset.rmips = 0 := rfl
@[simp] theorem State.applyReset_rcode (s : State) : s.applyReset.rcode = 0 := rfl
@[simp] theorem State.applyReset_ibuf (s : State) : s.applyReset.ibuf = [] := rfl
@[simp] theorem State.applyReset_obuf (s : State) : s.applyReset.obuf = [] := rfl
@[simp] theorem State.applyReset_cfg (s : State) : s.applyReset.cfg = s.cfg := rfl
@[simp] theorem State.applyReset_pending (s : State) : s.applyReset.pending = s.pending := rfl
@[simp] theorem State.applyReset_returned (s : State) : s.applyReset.returned = s.returned := rfl
@[simp] theorem State.applyReset_draws (s : State) : s.applyReset.draws = s.draws := rfl

/-! ### `State.withFetchWord` -/

@[simp] theorem State.withFetchWord_cmd (s : State) (n w : Nat) : (s.withFetchWord n w).cmd = s.cmd := rfl
@[simp] theorem State.withFetchWord_width (s : State) (n w : Nat) : (s.withFetchWord n w).width = s.width := rfl
@[simp] theorem State.withFetchWord_height (s : State) (n w : Nat) : (s.withFetchWord n w).height = s.height := rfl
@[simp] theorem State.withFetchWord_layers (s : State) (n w : Nat) : (s.withFetchWord n w).layers = s.layers := rfl
@[simp] theorem State.withFetchWord_mips (s : State) (n w : Nat) : (s.withFetchWord n w).mips = s.mips := rfl
@[simp] theorem State.withFetchWord_tlayer (s : State) (n w : Nat) : (s.withFetchWord n w).tlayer = s.tlayer := rfl
@[simp] theorem State.withFetchWord_inlen (s : State) (n w : Nat) : (s.withFetchWord n w).inlen = s.inlen := rfl
@[simp] theorem State.withFetchWord_code (s : State) (n w : Nat) : (s.withFetchWord n w).code = s.code := rfl
@[simp] theorem State.withFetchWord_status (s : State) (n w : Nat) : (s.withFetchWord n w).status = s.status := rfl
@[simp] theorem State.withFetchWord_outlen (s : State) (n w : Nat) : (s.withFetchWord n w).outlen = s.outlen := rfl
@[simp] theorem State.withFetchWord_rvariant (s : State) (n w : Nat) : (s.withFetchWord n w).rvariant = s.rvariant := rfl
@[simp] theorem State.withFetchWord_rwidth (s : State) (n w : Nat) : (s.withFetchWord n w).rwidth = s.rwidth := rfl
@[simp] theorem State.withFetchWord_rheight (s : State) (n w : Nat) : (s.withFetchWord n w).rheight = s.rheight := rfl
@[simp] theorem State.withFetchWord_rlayers (s : State) (n w : Nat) : (s.withFetchWord n w).rlayers = s.rlayers := rfl
@[simp] theorem State.withFetchWord_rmips (s : State) (n w : Nat) : (s.withFetchWord n w).rmips = s.rmips := rfl
@[simp] theorem State.withFetchWord_rcode (s : State) (n w : Nat) : (s.withFetchWord n w).rcode = s.rcode := rfl
@[simp] theorem State.withFetchWord_ibuf (s : State) (n w : Nat) : (s.withFetchWord n w).ibuf = s.ibuf := rfl
@[simp] theorem State.withFetchWord_obuf (s : State) (n w : Nat) : (s.withFetchWord n w).obuf = s.obuf := rfl
@[simp] theorem State.withFetchWord_cfg (s : State) (n w : Nat) : (s.withFetchWord n w).cfg = s.cfg := rfl
@[simp] theorem State.withFetchWord_pending (s : State) (n w : Nat) :
    (s.withFetchWord n w).pending = .writeReg .cmd (BitVec.ofNat 32 w) :: s.pending := rfl
@[simp] theorem State.withFetchWord_returned (s : State) (n w : Nat) : (s.withFetchWord n w).returned = s.returned := rfl
@[simp] theorem State.withFetchWord_draws (s : State) (n w : Nat) : (s.withFetchWord n w).draws = s.draws := rfl

/-! ### `State.hostSet` (10_state.md R11) -/

@[simp] theorem State.hostSet_ibuf (s : State) (r : Reg) (w : Word) : (s.hostSet r w).ibuf = s.ibuf := by
  cases r <;> rfl
@[simp] theorem State.hostSet_obuf (s : State) (r : Reg) (w : Word) : (s.hostSet r w).obuf = s.obuf := by
  cases r <;> rfl
@[simp] theorem State.hostSet_cfg (s : State) (r : Reg) (w : Word) : (s.hostSet r w).cfg = s.cfg := by
  cases r <;> rfl
@[simp] theorem State.hostSet_pending (s : State) (r : Reg) (w : Word) : (s.hostSet r w).pending = s.pending := by
  cases r <;> rfl
@[simp] theorem State.hostSet_returned (s : State) (r : Reg) (w : Word) : (s.hostSet r w).returned = s.returned := by
  cases r <;> rfl
@[simp] theorem State.hostSet_draws (s : State) (r : Reg) (w : Word) : (s.hostSet r w).draws = s.draws := by
  cases r <;> rfl
@[simp] theorem State.hostSet_status (s : State) (r : Reg) (w : Word) : (s.hostSet r w).status = s.status := by
  cases r <;> rfl
@[simp] theorem State.hostSet_outlen (s : State) (r : Reg) (w : Word) : (s.hostSet r w).outlen = s.outlen := by
  cases r <;> rfl
@[simp] theorem State.hostSet_rcode (s : State) (r : Reg) (w : Word) : (s.hostSet r w).rcode = s.rcode := by
  cases r <;> rfl
@[simp] theorem State.hostSet_rheight (s : State) (r : Reg) (w : Word) : (s.hostSet r w).rheight = s.rheight := by
  cases r <;> rfl
@[simp] theorem State.hostSet_rlayers (s : State) (r : Reg) (w : Word) : (s.hostSet r w).rlayers = s.rlayers := by
  cases r <;> rfl
@[simp] theorem State.hostSet_rmips (s : State) (r : Reg) (w : Word) : (s.hostSet r w).rmips = s.rmips := by
  cases r <;> rfl
@[simp] theorem State.hostSet_rvariant (s : State) (r : Reg) (w : Word) : (s.hostSet r w).rvariant = s.rvariant := by
  cases r <;> rfl
@[simp] theorem State.hostSet_rwidth (s : State) (r : Reg) (w : Word) : (s.hostSet r w).rwidth = s.rwidth := by
  cases r <;> rfl

/-- A host write of a register other than its own leaves a register unchanged (R39). -/
theorem State.hostSet_reg_ne (s : State) (w : Word) {q r : Reg} (h : q ≠ r) : (s.hostSet q w).reg r = s.reg r := by
  cases q <;> cases r <;> first | rfl | exact absurd rfl h

/-- A host write of a register below number 8 is read back; one of 8 to 15 is ignored (R11). -/
theorem State.hostSet_reg_self (s : State) (w : Word) (r : Reg) :
    (s.hostSet r w).reg r = if regNumber r < 8 then w else s.reg r := by
  cases r <;> rfl

end Sys2Proof.Machine
end

