-- ==== Sys2Proof/Laws/Ops.lean ====
section
/-! SUPPORT. What the shared operations can do, each said once: status words, the end of an operation, operands. -/

namespace Sys2Proof.Machine

/-! ### Status words (10_state.md R13) -/

@[simp] theorem statusState_pack (b : Bool) (e : BitVec 4) (st : BitVec 2) : statusState (packStatus b e st) = st := by
  revert b e st; decide

@[simp] theorem statusErr_pack (b : Bool) (e : BitVec 4) (st : BitVec 2) : statusErr (packStatus b e st) = e := by
  revert b e st; decide

@[simp] theorem statusSticky_pack (b : Bool) (e : BitVec 4) (st : BitVec 2) : statusSticky (packStatus b e st) = b := by
  revert b e st; decide

/-- The reserved bits of a packed status word are zero. -/
theorem packStatus_reserved (b : Bool) (e : BitVec 4) (st : BitVec 2) :
    (packStatus b e st).extractLsb' 2 2 = 0 ∧ (packStatus b e st).extractLsb' 9 23 = 0 := by
  revert b e st; decide

/-! ### The end of an operation -/

/-- An operation always answers a next state: its success, or its exception taken (60_exceptions.md R140). -/
theorem settle_eq_next (s : State) (r : Except Exc State) :
    (∃ t, r = .ok t ∧ settle s r = .next t) ∨ (∃ e, r = .error e ∧ settle s r = .next (s.raise e)) := by
  cases r with
  | ok t => exact .inl ⟨t, rfl, rfl⟩
  | error e => exact .inr ⟨e, rfl, rfl⟩

@[simp] theorem settle_ok (s t : State) : settle s (.ok t) = .next t := rfl
@[simp] theorem settle_error (s : State) (e : Exc) : settle s (.error e) = .next (s.raise e) := rfl

/-- Everything `complete` can do. -/
theorem State.complete_cases (s : State) (out : List Byte) :
    (s.complete out = .error .capacityFault ∧ exceeds out.length s.cfg.obufCap = true) ∨
    (s.complete out = .error .fieldOverflow ∧ exceeds out.length s.cfg.obufCap = false ∧ 2 ^ 32 ≤ out.length) ∨
    (s.complete out = .ok (s.finish out) ∧ exceeds out.length s.cfg.obufCap = false ∧ out.length < 2 ^ 32) := by
  unfold State.complete
  split_ifs with h1 h2
  · exact .inl ⟨rfl, h1⟩
  · exact .inr (.inl ⟨rfl, by simpa using h1, h2⟩)
  · exact .inr (.inr ⟨rfl, by simpa using h1, by omega⟩)

/-- `exceeds` is the failure of `fits`. -/
theorem exceeds_eq_false_iff (n : Nat) (cap : Option Nat) : exceeds n cap = false ↔ fits n cap := by
  cases cap <;> simp [exceeds, fits]

/-- `complete` succeeds on an output that fits. -/
theorem State.complete_of_fits {s : State} {out : List Byte} (h : OutputFits s.cfg out.length) :
    s.complete out = .ok (s.finish out) := by
  have h1 := (exceeds_eq_false_iff _ _).2 h.1
  have h2 := h.2
  simp only [State.complete, h1, Bool.false_eq_true, if_false]
  rw [if_neg (by omega)]

/-- A state that differs from a finished one in result registers only has succeeded. -/
theorem succeeds_of_finish {s t : State} {out : List Byte} (h : out.length < 2 ^ 32)
    (hs : t.status = (s.finish out).status) (hl : t.outlen = (s.finish out).outlen)
    (ho : t.obuf = (s.finish out).obuf) : Succeeds s t out where
  state_done := by simp [hs, statusAfterDone]
  err_zero := by simp [hs, statusAfterDone]
  sticky_kept := by simp [hs, statusAfterDone]
  reserved_zero := by rw [hs]; exact packStatus_reserved _ _ _
  outlen_length := by
    rw [hl, State.finish_outlen, BitVec.toNat_ofNat, Nat.mod_eq_of_lt h]
  obuf_bytes a := by rw [ho, State.finish_obuf, Memory.byte?_ofBytes_zero]

/-- The plain success. -/
theorem State.finish_succeeds {s : State} {out : List Byte} (h : out.length < 2 ^ 32) : Succeeds s (s.finish out) out :=
  succeeds_of_finish h rfl rfl rfl

/-- A plain success changes `STATUS` and `OUTLEN` only. -/
theorem State.finish_frame (s : State) (out : List Byte) : Frame [.status, .outlen] s (s.finish out) where
  regs r h := by cases r <;> first | rfl | simp at h
  ibuf_bytes _ := rfl
  cfg := rfl
  pending := rfl
  returned := rfl

/-- An exception leaves what 60_exceptions.md R150 says. -/
theorem State.raise_raised (s : State) (e : Exc) : Raised s (s.raise e) e where
  state_error := by simp [statusAfterError]
  err_code := by simp [statusAfterError]
  sticky_set := by simp [statusAfterError]
  reserved_zero := packStatus_reserved _ _ _
  outlen_zero := rfl
  obuf_invalid _ := rfl
  frame := {
    regs := fun r h => by cases r <;> first | rfl | simp [resultRegs] at h
    ibuf_bytes := fun _ => rfl
    cfg := rfl
    pending := rfl
    returned := rfl }

/-- A wider set of written registers gives a weaker frame. -/
theorem Frame.mono {s t : State} {ws ws' : List Reg} (h : Frame ws s t) (hw : ∀ r ∈ ws, r ∈ ws') : Frame ws' s t where
  regs r hr := h.regs r fun hm => hr (hw r hm)
  ibuf_bytes := h.ibuf_bytes
  cfg := h.cfg
  pending := h.pending
  returned := h.returned

/-- `complete` raises `CAPACITY_FAULT` on an output beyond the capacity. -/
theorem State.complete_of_not_fits {s : State} {out : List Byte} (h : ¬ fits out.length s.cfg.obufCap) :
    s.complete out = .error .capacityFault := by
  rw [← exceeds_eq_false_iff, Bool.not_eq_false] at h
  unfold State.complete
  rw [if_pos h]

/-- `complete` raises `FIELD_OVERFLOW` on an output within the capacity that does not fit `OUTLEN` (log entry 12). -/
theorem State.complete_of_overflow {s : State} {out : List Byte} (h : fits out.length s.cfg.obufCap)
    (h2 : 2 ^ 32 ≤ out.length) : s.complete out = .error .fieldOverflow := by
  unfold State.complete
  rw [if_neg (by rw [(exceeds_eq_false_iff _ _).2 h]; simp), if_pos h2]

/-- The status word of a success is a legal one. -/
theorem statusAfterDone_legal (old : Word) : StatusLegal (statusAfterDone old) where
  reserved_zero := packStatus_reserved _ _ _
  state_produced := by simp [statusAfterDone, stateDone]
  err_produced := by simp [statusAfterDone]
  err_iff_error := by simp [statusAfterDone, stateDone, stateError]
  error_sticky := by simp [statusAfterDone, stateDone, stateError]
  idle_zero := by simp [statusAfterDone, stateDone, stateIdle]

/-- The status word of an exception is a legal one. -/
theorem statusAfterError_legal (e : Exc) : StatusLegal (statusAfterError e) where
  reserved_zero := packStatus_reserved _ _ _
  state_produced := by simp [statusAfterError, stateError]
  err_produced := by cases e <;> simp [statusAfterError, Exc.code]
  err_iff_error := by cases e <;> simp [statusAfterError, Exc.code]
  error_sticky := by simp [statusAfterError, stateError]
  idle_zero := by simp [statusAfterError, stateError, stateIdle]

/-- An output within the capacity lists no index beyond it. -/
theorem Memory.ofBytes_within {out : List Byte} {cap : Option Nat} (h : exceeds out.length cap = false) :
    (Memory.ofBytes 0 out).Within cap := by
  intro c hc
  have hm : c.1 ∈ (Memory.ofBytes 0 out).map Prod.fst := List.mem_map_of_mem hc
  rw [Memory.keys_ofBytes] at hm
  have hlt : c.1 < out.length := by simpa using hm
  cases cap with
  | none => rfl
  | some k => simp only [exceeds, decide_eq_false_iff_not] at *; omega

/-! ### Operands and byte order -/

/-- A normalised layer count is at least 1 (10_state.md R15). -/
theorem one_le_norm (n : Int) : 1 ≤ norm n := by
  unfold norm; split_ifs <;> omega

@[simp] theorem length_le32 (w : Word) : (le32 w).length = 4 := rfl

/-- Appending a byte below a word. -/
theorem toNat_append_byte {n : Nat} (x : BitVec n) (b : Byte) : (x ++ b).toNat = x.toNat * 256 + b.toNat := by
  rw [BitVec.toNat_append, ← Nat.shiftLeft_add_eq_or_of_lt b.isLt, Nat.shiftLeft_eq]

/-- The number a little-endian word stands for (00_scope.md R9). -/
theorem toNat_word32 (b0 b1 b2 b3 : Byte) :
    (word32 b0 b1 b2 b3).toNat = b0.toNat + 256 * b1.toNat + 65536 * b2.toNat + 16777216 * b3.toNat := by
  simp only [word32, toNat_append_byte]
  omega

/-- The number a little-endian half-word stands for (00_scope.md R9). -/
theorem toNat_half16 (b0 b1 : Byte) : (half16 b0 b1).toNat = b0.toNat + 256 * b1.toNat := by
  simp only [half16, toNat_append_byte]
  omega

/-- The four bytes of `le32` are the word's digits in base 256 (00_scope.md R9). -/
theorem toNat_le32 (w : Word) :
    (le32 w).map BitVec.toNat =
      [w.toNat % 256, w.toNat / 256 % 256, w.toNat / 65536 % 256, w.toNat / 16777216 % 256] := by
  simp [le32, Nat.shiftRight_eq_div_pow]

/-- A word is read back from its little-endian bytes (20_memory.md R32). -/
theorem word32_le32 (w : Word) :
    word32 (w.extractLsb' 0 8) (w.extractLsb' 8 8) (w.extractLsb' 16 8) (w.extractLsb' 24 8) = w := by
  apply BitVec.eq_of_toNat_eq
  rw [toNat_word32]
  have h := w.isLt
  simp only [BitVec.extractLsb'_toNat, Nat.shiftRight_eq_div_pow]
  omega

/-- The operands, as the statements write them (30_encoding.md R50). -/
theorem State.widthOp_eq (s : State) : s.widthOp = s.width.toInt := rfl
theorem State.heightOp_eq (s : State) : s.heightOp = s.height.toInt := rfl
theorem State.mipsOp_eq (s : State) : s.mipsOp = s.mips.toInt := rfl
theorem State.targetLayer_eq (s : State) : s.targetLayer = s.tlayer.toInt := rfl
theorem State.inputLength_eq (s : State) : s.inputLength = s.inlen.toNat := rfl

/-- A normalised layer count as a number (10_state.md R15). -/
theorem norm_sint32 (w : Word) :
    Machine.norm (sint32 w) = if w.toNat = 0 ∨ 2 ^ 31 ≤ w.toNat then 1 else w.toNat := by
  unfold Machine.norm sint32
  have h1 := BitVec.toInt_eq_toNat_cond w
  have h2 := w.isLt
  split_ifs at * <;> omega

/-- A normalised layer count is below 2^31 (10_state.md R15). -/
theorem State.layerCount_lt (s : State) : s.layerCount < 2 ^ 31 := by
  unfold State.layerCount
  rw [norm_sint32]
  split_ifs <;> omega

/-- The input bytes, as an operation reads them. -/
theorem memRead_inputLength (s : State) : s.memRead 0 s.inputLength = inputBytes s := by
  unfold State.memRead inputBytes
  rw [List.range_eq_range']
  rfl

@[simp] theorem length_inputBytes (s : State) : (inputBytes s).length = s.inlen.toNat := by simp [inputBytes]

/-- An input byte by its index. -/
theorem inputBytes_getElem? (s : State) {i : Nat} (h : i < s.inlen.toNat) :
    (inputBytes s)[i]? = some (s.ibufByte i) := by
  simp [inputBytes, h]

/-- A 32-bit input field as a number. -/
theorem State.toNat_u32 (s : State) (o : Nat) : (s.u32 o).toNat = inputField s o := by
  unfold State.u32 inputField
  rw [toNat_word32]

/-- A 32-bit input field compared with a word. -/
theorem State.u32_eq_iff (s : State) (o : Nat) (w : Word) : s.u32 o = w ↔ inputField s o = w.toNat := by
  rw [← State.toNat_u32]
  exact BitVec.toNat_inj.symm

/-- A field that lies in the first of two byte sequences. -/
theorem fieldAt_append_left {a : List Byte} (b : List Byte) {o : Nat} (h : o + 4 ≤ a.length) :
    fieldAt (a ++ b) o = fieldAt a o := by
  unfold fieldAt
  simp only [List.getD_eq_getElem?_getD]
  rw [List.getElem?_append_left (by omega), List.getElem?_append_left (by omega),
    List.getElem?_append_left (by omega), List.getElem?_append_left (by omega)]

/-- A field that lies in the second of two byte sequences. -/
theorem fieldAt_append_right (a b : List Byte) {o k : Nat} (h : o = a.length + k) :
    fieldAt (a ++ b) o = fieldAt b k := by
  subst h
  unfold fieldAt
  simp only [List.getD_eq_getElem?_getD, Nat.add_assoc]
  simp only [List.getElem?_append_right (Nat.le_add_right _ _), Nat.add_sub_cancel_left]

/-- The field of a word's own bytes. -/
theorem fieldAt_le32 (w : Word) : fieldAt (le32 w) 0 = w.toNat := by
  unfold fieldAt le32
  have h := w.isLt
  simp only [List.getD_cons_zero, List.getD_cons_succ, BitVec.extractLsb'_toNat, Nat.shiftRight_eq_div_pow,
    Nat.zero_add]
  omega

/-- A field at the start. -/
theorem fieldAt_le32_zero (w : Word) (r : List Byte) : fieldAt (le32 w ++ r) 0 = w.toNat := by
  rw [fieldAt_append_left r (by simp), fieldAt_le32]

/-- A field after a word. -/
theorem fieldAt_le32_add (w : Word) (r : List Byte) (k : Nat) : fieldAt (le32 w ++ r) (k + 4) = fieldAt r k :=
  fieldAt_append_right _ _ (by simp; omega)

/-- A field after zero bytes. -/
theorem fieldAt_zeroBytes_add (n : Nat) (r : List Byte) (k : Nat) : fieldAt (zeroBytes n ++ r) (k + n) = fieldAt r k :=
  fieldAt_append_right _ _ (by simp [zeroBytes]; omega)

end Sys2Proof.Machine
end

