-- ==== Sys2Proof/Laws/Dispatch.lean ====
section
/-! SUPPORT. `exec` seen through the ten operations, and what an operation can do, said once for all of them. -/

namespace Sys2Proof

@[simp] theorem Instr.command_instr (i : Instr) : i.command.instr = i := by cases i <;> rfl

@[simp] theorem Command.instr_command (c : Command) : c.instr.command = c := by
  cases c <;> first | rfl | (rename_i v; cases v <;> rfl)

open Machine in
/-- The operation a command names, before its exception is taken (30_encoding.md R48). -/
def Command.run : Command → State → Except Exc State
  | .catFourcc v => Machine.catFourcc v
  | .catDxgi v => Machine.catDxgi v
  | .catVfourcc => Machine.catVfourcc
  | .catVdxgi => Machine.catVdxgi
  | .hdrBuild v => Machine.hdrBuild v
  | .hdrParse => Machine.hdrParse
  | .mipSizes v => Machine.mipSizes v
  | .mipTake v => Machine.mipTake v
  | .pixDecode v => Machine.pixDecode v
  | .pixEncode v => Machine.pixEncode v

end Sys2Proof

namespace Sys2Proof.Machine

theorem exec_catFourcc (v : Variant) (s : State) : exec (Command.catFourcc v).instr s = settle s (catFourcc v s) := by
  cases v <;> rfl
theorem exec_catDxgi (v : Variant) (s : State) : exec (Command.catDxgi v).instr s = settle s (catDxgi v s) := by
  cases v <;> rfl
theorem exec_catVfourcc (s : State) : exec .catVfourcc s = settle s (catVfourcc s) := rfl
theorem exec_catVdxgi (s : State) : exec .catVdxgi s = settle s (catVdxgi s) := rfl
theorem exec_hdrBuild (v : Variant) (s : State) : exec (Command.hdrBuild v).instr s = settle s (hdrBuild v s) := by
  cases v <;> rfl
theorem exec_hdrParse (s : State) : exec .hdrParse s = settle s (hdrParse s) := rfl
theorem exec_mipSizes (v : Variant) (s : State) : exec (Command.mipSizes v).instr s = settle s (mipSizes v s) := by
  cases v <;> rfl
theorem exec_mipTake (v : Variant) (s : State) : exec (Command.mipTake v).instr s = settle s (mipTake v s) := by
  cases v <;> rfl
theorem exec_pixDecode (v : Variant) (s : State) : exec (Command.pixDecode v).instr s = settle s (pixDecode v s) := by
  cases v <;> rfl
theorem exec_pixEncode (v : Variant) (s : State) : exec (Command.pixEncode v).instr s = settle s (pixEncode v s) := by
  cases v <;> rfl

/-- Every arm of `exec` settles the operation its command names. -/
theorem exec_instr (c : Command) (s : State) : exec c.instr s = settle s (Command.run c s) := by
  cases c with
  | catFourcc v => exact exec_catFourcc v s
  | catDxgi v => exact exec_catDxgi v s
  | catVfourcc => rfl
  | catVdxgi => rfl
  | hdrBuild v => exact exec_hdrBuild v s
  | hdrParse => rfl
  | mipSizes v => exact exec_mipSizes v s
  | mipTake v => exact exec_mipTake v s
  | pixDecode v => exact exec_pixDecode v s
  | pixEncode v => exact exec_pixEncode v s

theorem exec_eq (i : Instr) (s : State) : exec i s = settle s (Command.run i.command s) := by
  rw [← exec_instr, Instr.command_instr]

/-- A finished state whose result registers in `ws` were then written: everything a success can change. -/
structure FinishedWith (s t : State) (out : List Byte) (ws : List Reg) : Prop where
  short : out.length < 2 ^ 32
  capacity : exceeds out.length s.cfg.obufCap = false
  status : t.status = statusAfterDone s.status
  outlen : t.outlen = BitVec.ofNat 32 out.length
  obuf : t.obuf = Memory.ofBytes 0 out
  draws : t.draws = s.draws + 1
  ibuf : t.ibuf = s.ibuf
  frame : Frame (.status :: .outlen :: ws) s t

theorem FinishedWith.succeeds {s t : State} {out : List Byte} {ws : List Reg} (h : FinishedWith s t out ws) :
    Succeeds s t out :=
  succeeds_of_finish h.short h.status h.outlen h.obuf

/-- A finished state with result registers of `ws` written on top. -/
theorem finishedWith_of_finish {s t : State} {out : List Byte} {ws : List Reg} (hl : out.length < 2 ^ 32)
    (hc : exceeds out.length s.cfg.obufCap = false)
    (h : ∃ a b c d e f : Word, t = { s.finish out with
      rvariant := a, rwidth := b, rheight := c, rlayers := d, rmips := e, rcode := f } ∧
      (Reg.rvariant ∈ ws ∨ a = s.rvariant) ∧ (Reg.rwidth ∈ ws ∨ b = s.rwidth) ∧ (Reg.rheight ∈ ws ∨ c = s.rheight) ∧
      (Reg.rlayers ∈ ws ∨ d = s.rlayers) ∧ (Reg.rmips ∈ ws ∨ e = s.rmips) ∧ (Reg.rcode ∈ ws ∨ f = s.rcode)) :
    FinishedWith s t out ws := by
  obtain ⟨a, b, c, d, e, f, rfl, h1, h2, h3, h4, h5, h6⟩ := h
  refine ⟨hl, hc, rfl, rfl, rfl, rfl, rfl, ?_, fun _ => rfl, rfl, rfl, rfl⟩
  intro r hr
  simp only [List.mem_cons, not_or] at hr
  cases r <;> first
    | rfl
    | (simp only [State.reg]; tauto)

/-- An empty output exceeds no capacity. -/
theorem exceeds_zero (cap : Option Nat) : exceeds 0 cap = false := by cases cap <;> simp [exceeds]

/-- Everything an operation's success can do: it finishes with some output and writes at most its own result registers
(10_state.md R25). -/
theorem Command.run_ok {c : Command} {s t : State} (h : Command.run c s = .ok t) :
    ∃ out, FinishedWith s t out c.writes := by
  cases c with
  | catFourcc v =>
    simp only [Command.run, catFourcc] at h
    split_ifs at h; cases h
    exact ⟨[], finishedWith_of_finish (by simp) (exceeds_zero _) ⟨_, _, _, _, _, _, rfl, by simp [Command.writes]⟩⟩
  | catDxgi v =>
    simp only [Command.run, catDxgi] at h
    split_ifs at h; cases h
    exact ⟨[], finishedWith_of_finish (by simp) (exceeds_zero _) ⟨_, _, _, _, _, _, rfl, by simp [Command.writes]⟩⟩
  | catVfourcc =>
    simp only [Command.run, catVfourcc] at h
    split at h <;> cases h
    exact ⟨[], finishedWith_of_finish (by simp) (exceeds_zero _) ⟨_, _, _, _, _, _, rfl, by simp [Command.writes]⟩⟩
  | catVdxgi =>
    simp only [Command.run, catVdxgi] at h
    split at h <;> cases h
    exact ⟨[], finishedWith_of_finish (by simp) (exceeds_zero _) ⟨_, _, _, _, _, _, rfl, by simp [Command.writes]⟩⟩
  | hdrBuild v =>
    simp only [Command.run, hdrBuild] at h
    split_ifs at h
    rcases s.complete_cases (headerBytes v s) with ⟨h1, -⟩ | ⟨h1, -⟩ | ⟨h1, hc, hl⟩ <;>
      rw [h1] at h <;> cases h
    exact ⟨_, finishedWith_of_finish hl hc ⟨_, _, _, _, _, _, rfl, by simp [Command.writes]⟩⟩
  | hdrParse =>
    simp only [Command.run, hdrParse] at h
    split_ifs at h
    · split at h <;> cases h
      exact ⟨[], finishedWith_of_finish (by simp) (exceeds_zero _) ⟨_, _, _, _, _, _, rfl, by simp [Command.writes]⟩⟩
    · split at h <;> cases h
      exact ⟨[], finishedWith_of_finish (by simp) (exceeds_zero _) ⟨_, _, _, _, _, _, rfl, by simp [Command.writes]⟩⟩
  | mipSizes v =>
    simp only [Command.run, mipSizes] at h
    split_ifs at h
    rcases s.complete_cases (sizeWords (levelSizes v s.widthOp.toNat s.heightOp.toNat))
      with ⟨h1, -⟩ | ⟨h1, -⟩ | ⟨h1, hc, hl⟩ <;> rw [h1] at h <;> cases h
    exact ⟨_, finishedWith_of_finish hl hc ⟨_, _, _, _, _, _, rfl, by simp [Command.writes]⟩⟩
  | mipTake v =>
    simp only [Command.run, mipTake] at h
    split_ifs at h
    rcases s.complete_cases (sizeWords ((levelSizes v s.widthOp.toNat s.heightOp.toNat).take s.mipsOp.toNat))
      with ⟨h1, -⟩ | ⟨h1, -⟩ | ⟨h1, hc, hl⟩ <;> rw [h1] at h <;> cases h
    exact ⟨_, finishedWith_of_finish hl hc ⟨_, _, _, _, _, _, rfl, by simp [Command.writes]⟩⟩
  | pixDecode v =>
    simp only [Command.run, pixDecode] at h
    split_ifs at h
    cases h1 : stage1 s.cfg s.draws (s.memRead 0 s.inputLength) s.widthOp.toNat s.heightOp.toNat s.layerCount v with
    | error e => rw [h1] at h; cases h
    | ok out1 =>
      cases h2 : stage2 out1 s.layerCount s.targetLayer with
      | error e => rw [h1] at h; simp only [bind, Except.bind, h2] at h; cases h
      | ok out =>
        rw [h1] at h; simp only [bind, Except.bind, h2] at h
        rcases s.complete_cases out with ⟨h1, -⟩ | ⟨h1, -⟩ | ⟨h1, hc, hl⟩ <;> rw [h1] at h <;> cases h
        exact ⟨_, finishedWith_of_finish hl hc ⟨_, _, _, _, _, _, rfl, by simp [Command.writes]⟩⟩
  | pixEncode v =>
    simp only [Command.run, pixEncode] at h
    split_ifs at h with g1 g2 g3 g4
    · rcases s.complete_cases (swap02 (s.memRead 0 s.inputLength)) with ⟨h1, -⟩ | ⟨h1, -⟩ | ⟨h1, hc, hl⟩ <;>
        rw [h1] at h <;> cases h
      exact ⟨_, finishedWith_of_finish hl hc ⟨_, _, _, _, _, _, rfl, by simp [Command.writes]⟩⟩
    · rcases s.complete_cases (s.memRead 0 s.inputLength) with ⟨h1, -⟩ | ⟨h1, -⟩ | ⟨h1, hc, hl⟩ <;>
        rw [h1] at h <;> cases h
      exact ⟨_, finishedWith_of_finish hl hc ⟨_, _, _, _, _, _, rfl, by simp [Command.writes]⟩⟩

/-- Everything `exec` can do: a success that writes at most its own result registers, or one exception taken. -/
theorem exec_cases (i : Instr) (s : State) :
    (∃ t out, exec i s = .next t ∧ FinishedWith s t out i.command.writes) ∨ (∃ e, exec i s = .next (s.raise e)) := by
  rw [exec_eq]
  rcases settle_eq_next s (Command.run i.command s) with ⟨t, h, hs⟩ | ⟨e, -, hs⟩
  · obtain ⟨out, ho⟩ := Command.run_ok h
    exact .inl ⟨t, out, hs, ho⟩
  · exact .inr ⟨e, hs⟩

/-- An operation that answers a state finished with `out` completes. -/
theorem completes_of_run {c : Command} {s t : State} {out : List Byte} {ws : List Reg} (h : Command.run c s = .ok t)
    (hf : FinishedWith s t out ws) : Completes c.instr s t out ws :=
  ⟨by rw [exec_instr, h]; rfl, hf.succeeds, hf.frame⟩

/-- An operation that answers an exception takes it. -/
theorem raises_of_run {c : Command} {s : State} {e : Exc} (h : Command.run c s = .error e) : Raises c.instr s e :=
  ⟨_, by rw [exec_instr, h]; rfl, State.raise_raised _ _⟩

/-- The plain finish, with no result register written. -/
theorem finishedWith_finish {s : State} {out : List Byte} (ws : List Reg) (h : OutputFits s.cfg out.length) :
    FinishedWith s (s.finish out) out ws :=
  finishedWith_of_finish h.2 ((exceeds_eq_false_iff _ _).2 h.1) ⟨_, _, _, _, _, _, rfl, by simp⟩

end Sys2Proof.Machine
end

