-- ==== Sys2Proof/Laws/Header.lean ====
section
/-! SUPPORT. The container header: its length and its fields by offset (30_encoding.md R55, R56), and what a build and a
parse do with them. -/

namespace Sys2Proof.Machine

/-- When a build writes the extension block (41_header.md R82). -/
theorem useExt_iff (s : State) (v : Variant) : useExt s.cfg v s.layerCount = true ↔ NeedsExt s v := by
  simp [useExt, NeedsExt, or_assoc]

@[simp] theorem ContainerHeader.length_bytes (h : ContainerHeader) : h.bytes.length = 128 := by
  simp [ContainerHeader.bytes, zeroBytes]

@[simp] theorem ExtensionBlock.length_bytes (x : ExtensionBlock) : x.bytes.length = 20 := by
  simp [ExtensionBlock.bytes]

/-- Every field of a header, by offset. -/
theorem ContainerHeader.fields (h : ContainerHeader) :
    fieldAt h.bytes 0 = 0x20534444 ∧ fieldAt h.bytes 4 = 124 ∧ fieldAt h.bytes 8 = h.flags.toNat ∧
    fieldAt h.bytes 12 = h.height.toNat ∧ fieldAt h.bytes 16 = h.width.toNat ∧ fieldAt h.bytes 20 = h.pitch.toNat ∧
    fieldAt h.bytes 24 = 0 ∧ fieldAt h.bytes 28 = h.mipCount.toNat ∧ fieldAt h.bytes 76 = 32 ∧
    fieldAt h.bytes 80 = h.pf.flags.toNat ∧ fieldAt h.bytes 84 = h.fourCC.toNat ∧
    fieldAt h.bytes 88 = h.pf.bitCount.toNat ∧ fieldAt h.bytes 92 = h.pf.rMask.toNat ∧
    fieldAt h.bytes 96 = h.pf.gMask.toNat ∧ fieldAt h.bytes 100 = h.pf.bMask.toNat ∧
    fieldAt h.bytes 104 = h.pf.aMask.toNat ∧ fieldAt h.bytes 108 = h.caps.toNat := by
  unfold ContainerHeader.bytes
  simp only [List.append_assoc]
  refine ⟨?_, ?_, ?_, ?_, ?_, ?_, ?_, ?_, ?_, ?_, ?_, ?_, ?_, ?_, ?_, ?_, ?_⟩
  all_goals
    repeat (first | rw [fieldAt_le32_add] | rw [fieldAt_zeroBytes_add (n := 44)])
    rw [fieldAt_le32_zero]
    try rfl

/-- The reserved bytes of a header are zero. -/
theorem ContainerHeader.reserved_zero (h : ContainerHeader) {k : Nat} (hk : 32 ≤ k ∧ k < 76 ∨ 112 ≤ k ∧ k < 128) :
    h.bytes[k]? = some 0 := by
  unfold ContainerHeader.bytes
  simp only [List.append_assoc]
  iterate 8 rw [List.getElem?_append_right (by simp only [length_le32]; omega)]
  rcases hk with hk | hk
  · rw [List.getElem?_append_left (by simp only [length_le32, zeroBytes, List.length_replicate]; omega)]
    simp only [zeroBytes, List.getElem?_replicate, length_le32]
    rw [if_pos (by omega)]
  · iterate 10
      rw [List.getElem?_append_right (by simp only [length_le32, zeroBytes, List.length_replicate]; omega)]
    simp only [zeroBytes, List.getElem?_replicate, length_le32, List.length_replicate]
    rw [if_pos (by omega)]

/-- Every field of an extension block, by offset. -/
theorem ExtensionBlock.fields (x : ExtensionBlock) :
    fieldAt x.bytes 0 = x.dxgiFormat.toNat ∧ fieldAt x.bytes 4 = 3 ∧ fieldAt x.bytes 8 = 0 ∧
    fieldAt x.bytes 12 = x.arraySize.toNat ∧ fieldAt x.bytes 16 = 0 := by
  unfold ExtensionBlock.bytes
  simp only [List.append_assoc]
  refine ⟨?_, ?_, ?_, ?_, ?_⟩
  all_goals
    repeat (rw [fieldAt_le32_add])
    first | rw [fieldAt_le32_zero] | rw [fieldAt_le32]
    try rfl

/-- The length of what a build writes (30_encoding.md R51). -/
theorem length_headerBytes (v : Variant) (s : State) :
    (headerBytes v s).length = if NeedsExt s v then 148 else 128 := by
  unfold headerBytes
  by_cases h : NeedsExt s v
  · simp [(useExt_iff s v).2 h, h]
  · have hu : useExt s.cfg v s.layerCount = false := by rw [← Bool.not_eq_true, useExt_iff]; exact h
    simp [hu, h]

/-- The parse's three checks of fixed fields (41_header.md R92). -/
theorem fixedFields_iff (s : State) :
    (s.u32 0 ≠ headerMagic ∨ s.u32 4 ≠ headerSize ∨ s.u32 76 ≠ pixelFormatSize) ↔ ¬ HeaderFixedFields s := by
  simp only [ne_eq, State.u32_eq_iff, headerMagic, headerSize, pixelFormatSize, HeaderFixedFields]
  norm_num
  tauto

/-- A parse's success finishes with no output. -/
theorem parsed_finishedWith (s : State) (v : Variant) (layers hlen : Nat) :
    FinishedWith s (parsed s v layers hlen) [] resultRegs :=
  finishedWith_of_finish (by simp) (exceeds_zero _) ⟨_, _, _, _, _, _, rfl, by simp [resultRegs]⟩

end Sys2Proof.Machine
end

