-- ==== Sys2Proof/Laws/Mip.lean ====
section
/-! SUPPORT. The level sequence and the words it is written as (42_mip.md R100, R101; 30_encoding.md R62). -/

namespace Sys2Proof.Machine

/-- Halving once, then `k` times, is halving `k + 1` times. -/
theorem max_one_half_pow (x k : Nat) : max 1 (max 1 (x / 2) / 2 ^ k) = max 1 (x / 2 ^ (k + 1)) := by
  rw [pow_succ', ← Nat.div_div_eq_div_mul]
  rcases Nat.eq_zero_or_pos (x / 2) with h | h
  · rw [h]
    have h1 : 1 / 2 ^ k ≤ 1 := Nat.div_le_self _ _
    simp
    omega
  · rw [max_eq_right (show 1 ≤ x / 2 from h)]

/-- The loop of R100, with fuel enough, in closed form. -/
theorem levelLoop_eq (v : Variant) (fuel : Nat) : ∀ w h : Nat, 1 ≤ w → 1 ≤ h → max w h ≤ fuel →
    levelLoop v fuel w h = (List.range (depth w h)).map fun k =>
      ⟨max 1 (w / 2 ^ k), max 1 (h / 2 ^ k), levelBytes v w h k⟩ := by
  induction fuel with
  | zero => intro w h h1 h2 h3; omega
  | succ n ih =>
    intro w h h1 h2 h3
    unfold levelLoop
    by_cases h11 : w = 1 ∧ h = 1
    · obtain ⟨rfl, rfl⟩ := h11
      rw [show depth 1 1 = 1 by decide]
      simp [levelBytes, levelSize]
    · rw [if_neg h11, ih _ _ (by omega) (by omega) (by omega)]
      have hdep : depth w h = depth (max 1 (w / 2)) (max 1 (h / 2)) + 1 := by
        unfold depth
        rw [show max (max 1 (w / 2)) (max 1 (h / 2)) = max w h / 2 by omega]
        conv_lhs => rw [Nat.log2_def]
        rw [if_pos (by omega)]
      rw [hdep, List.range_succ_eq_map, List.map_cons, List.map_map]
      congr 1
      · simp [levelBytes, levelSize, h1, h2]
      · apply List.map_congr_left
        intro k _
        simp only [Function.comp, levelBytes, max_one_half_pow]

/-- The byte lengths in closed form. -/
theorem levelSizes_eq (v : Variant) {w h : Nat} (h1 : 1 ≤ w) (h2 : 1 ≤ h) :
    levelSizes v w h = (List.range (depth w h)).map (levelBytes v w h) := by
  unfold levelSizes mipLevels
  rw [levelLoop_eq v _ w h h1 h2 le_rfl, List.map_map]
  rfl

/-- Four bytes a size. -/
theorem length_sizeWords (l : List Nat) : (sizeWords l).length = 4 * l.length := by
  induction l with
  | nil => rfl
  | cons a l ih => simp [sizeWords] at *; omega

/-- The word at a position. -/
theorem fieldAt_sizeWords (l : List Nat) (k : Nat) (hk : k < l.length) :
    fieldAt (sizeWords l) (4 * k) = l[k] % 2 ^ 32 := by
  induction l generalizing k with
  | nil => simp at hk
  | cons a l ih =>
    rw [show sizeWords (a :: l) = le32 (BitVec.ofNat 32 a) ++ sizeWords l from rfl]
    cases k with
    | zero => rw [Nat.mul_zero, fieldAt_le32_zero, BitVec.toNat_ofNat]; rfl
    | succ k => rw [show 4 * (k + 1) = 4 * k + 4 by ring, fieldAt_le32_add, ih k (by simpa using hk)]; rfl

end Sys2Proof.Machine
end

