-- ==== Sys2Proof/Laws/PerInstr.lean ====
section
/-! SUPPORT. Statements about every instruction, one lemma per constructor. -/

namespace Sys2Proof.Laws.Encoding

/-- The word of an instruction has its operation's code in `OP`, its variant's code (or 0) in `VAR`, and zero in `ZERO`
(30_encoding.md R46 to R48). -/
def Statement (i : Instr) : Prop :=
  zeroField (encode i) = 0 ∧ opField (encode i) = i.command.opCode ∧ varField (encode i) = i.command.varCode

theorem catFourccDXT1 : Statement .catFourccDXT1 := by unfold Statement; decide
theorem catFourccDXT3 : Statement .catFourccDXT3 := by unfold Statement; decide
theorem catFourccDXT5 : Statement .catFourccDXT5 := by unfold Statement; decide
theorem catFourccBC4 : Statement .catFourccBC4 := by unfold Statement; decide
theorem catFourccBC5 : Statement .catFourccBC5 := by unfold Statement; decide
theorem catFourccBC7 : Statement .catFourccBC7 := by unfold Statement; decide
theorem catFourccA8R8G8B8 : Statement .catFourccA8R8G8B8 := by unfold Statement; decide
theorem catFourccX8R8G8B8 : Statement .catFourccX8R8G8B8 := by unfold Statement; decide
theorem catFourccA4R4G4B4 : Statement .catFourccA4R4G4B4 := by unfold Statement; decide
theorem catFourccA1R5G5B5 : Statement .catFourccA1R5G5B5 := by unfold Statement; decide
theorem catFourccL8 : Statement .catFourccL8 := by unfold Statement; decide
theorem catFourccA8 : Statement .catFourccA8 := by unfold Statement; decide
theorem catFourccD16 : Statement .catFourccD16 := by unfold Statement; decide
theorem catFourccR32F : Statement .catFourccR32F := by unfold Statement; decide
theorem catFourccG16R16F : Statement .catFourccG16R16F := by unfold Statement; decide
theorem catFourccG32R32F : Statement .catFourccG32R32F := by unfold Statement; decide
theorem catFourccA16B16G16R16F : Statement .catFourccA16B16G16R16F := by unfold Statement; decide
theorem catFourccA32B32G32R32F : Statement .catFourccA32B32G32R32F := by unfold Statement; decide
theorem catFourccINVALID : Statement .catFourccINVALID := by unfold Statement; decide
theorem catDxgiDXT1 : Statement .catDxgiDXT1 := by unfold Statement; decide
theorem catDxgiDXT3 : Statement .catDxgiDXT3 := by unfold Statement; decide
theorem catDxgiDXT5 : Statement .catDxgiDXT5 := by unfold Statement; decide
theorem catDxgiBC4 : Statement .catDxgiBC4 := by unfold Statement; decide
theorem catDxgiBC5 : Statement .catDxgiBC5 := by unfold Statement; decide
theorem catDxgiBC7 : Statement .catDxgiBC7 := by unfold Statement; decide
theorem catDxgiA8R8G8B8 : Statement .catDxgiA8R8G8B8 := by unfold Statement; decide
theorem catDxgiX8R8G8B8 : Statement .catDxgiX8R8G8B8 := by unfold Statement; decide
theorem catDxgiA4R4G4B4 : Statement .catDxgiA4R4G4B4 := by unfold Statement; decide
theorem catDxgiA1R5G5B5 : Statement .catDxgiA1R5G5B5 := by unfold Statement; decide
theorem catDxgiL8 : Statement .catDxgiL8 := by unfold Statement; decide
theorem catDxgiA8 : Statement .catDxgiA8 := by unfold Statement; decide
theorem catDxgiD16 : Statement .catDxgiD16 := by unfold Statement; decide
theorem catDxgiR32F : Statement .catDxgiR32F := by unfold Statement; decide
theorem catDxgiG16R16F : Statement .catDxgiG16R16F := by unfold Statement; decide
theorem catDxgiG32R32F : Statement .catDxgiG32R32F := by unfold Statement; decide
theorem catDxgiA16B16G16R16F : Statement .catDxgiA16B16G16R16F := by unfold Statement; decide
theorem catDxgiA32B32G32R32F : Statement .catDxgiA32B32G32R32F := by unfold Statement; decide
theorem catDxgiINVALID : Statement .catDxgiINVALID := by unfold Statement; decide
theorem catVfourcc : Statement .catVfourcc := by unfold Statement; decide
theorem catVdxgi : Statement .catVdxgi := by unfold Statement; decide
theorem hdrBuildDXT1 : Statement .hdrBuildDXT1 := by unfold Statement; decide
theorem hdrBuildDXT3 : Statement .hdrBuildDXT3 := by unfold Statement; decide
theorem hdrBuildDXT5 : Statement .hdrBuildDXT5 := by unfold Statement; decide
theorem hdrBuildBC4 : Statement .hdrBuildBC4 := by unfold Statement; decide
theorem hdrBuildBC5 : Statement .hdrBuildBC5 := by unfold Statement; decide
theorem hdrBuildBC7 : Statement .hdrBuildBC7 := by unfold Statement; decide
theorem hdrBuildA8R8G8B8 : Statement .hdrBuildA8R8G8B8 := by unfold Statement; decide
theorem hdrBuildX8R8G8B8 : Statement .hdrBuildX8R8G8B8 := by unfold Statement; decide
theorem hdrBuildA4R4G4B4 : Statement .hdrBuildA4R4G4B4 := by unfold Statement; decide
theorem hdrBuildA1R5G5B5 : Statement .hdrBuildA1R5G5B5 := by unfold Statement; decide
theorem hdrBuildL8 : Statement .hdrBuildL8 := by unfold Statement; decide
theorem hdrBuildA8 : Statement .hdrBuildA8 := by unfold Statement; decide
theorem hdrBuildD16 : Statement .hdrBuildD16 := by unfold Statement; decide
theorem hdrBuildR32F : Statement .hdrBuildR32F := by unfold Statement; decide
theorem hdrBuildG16R16F : Statement .hdrBuildG16R16F := by unfold Statement; decide
theorem hdrBuildG32R32F : Statement .hdrBuildG32R32F := by unfold Statement; decide
theorem hdrBuildA16B16G16R16F : Statement .hdrBuildA16B16G16R16F := by unfold Statement; decide
theorem hdrBuildA32B32G32R32F : Statement .hdrBuildA32B32G32R32F := by unfold Statement; decide
theorem hdrBuildINVALID : Statement .hdrBuildINVALID := by unfold Statement; decide
theorem hdrParse : Statement .hdrParse := by unfold Statement; decide
theorem mipSizesDXT1 : Statement .mipSizesDXT1 := by unfold Statement; decide
theorem mipSizesDXT3 : Statement .mipSizesDXT3 := by unfold Statement; decide
theorem mipSizesDXT5 : Statement .mipSizesDXT5 := by unfold Statement; decide
theorem mipSizesBC4 : Statement .mipSizesBC4 := by unfold Statement; decide
theorem mipSizesBC5 : Statement .mipSizesBC5 := by unfold Statement; decide
theorem mipSizesBC7 : Statement .mipSizesBC7 := by unfold Statement; decide
theorem mipSizesA8R8G8B8 : Statement .mipSizesA8R8G8B8 := by unfold Statement; decide
theorem mipSizesX8R8G8B8 : Statement .mipSizesX8R8G8B8 := by unfold Statement; decide
theorem mipSizesA4R4G4B4 : Statement .mipSizesA4R4G4B4 := by unfold Statement; decide
theorem mipSizesA1R5G5B5 : Statement .mipSizesA1R5G5B5 := by unfold Statement; decide
theorem mipSizesL8 : Statement .mipSizesL8 := by unfold Statement; decide
theorem mipSizesA8 : Statement .mipSizesA8 := by unfold Statement; decide
theorem mipSizesD16 : Statement .mipSizesD16 := by unfold Statement; decide
theorem mipSizesR32F : Statement .mipSizesR32F := by unfold Statement; decide
theorem mipSizesG16R16F : Statement .mipSizesG16R16F := by unfold Statement; decide
theorem mipSizesG32R32F : Statement .mipSizesG32R32F := by unfold Statement; decide
theorem mipSizesA16B16G16R16F : Statement .mipSizesA16B16G16R16F := by unfold Statement; decide
theorem mipSizesA32B32G32R32F : Statement .mipSizesA32B32G32R32F := by unfold Statement; decide
theorem mipSizesINVALID : Statement .mipSizesINVALID := by unfold Statement; decide
theorem mipTakeDXT1 : Statement .mipTakeDXT1 := by unfold Statement; decide
theorem mipTakeDXT3 : Statement .mipTakeDXT3 := by unfold Statement; decide
theorem mipTakeDXT5 : Statement .mipTakeDXT5 := by unfold Statement; decide
theorem mipTakeBC4 : Statement .mipTakeBC4 := by unfold Statement; decide
theorem mipTakeBC5 : Statement .mipTakeBC5 := by unfold Statement; decide
theorem mipTakeBC7 : Statement .mipTakeBC7 := by unfold Statement; decide
theorem mipTakeA8R8G8B8 : Statement .mipTakeA8R8G8B8 := by unfold Statement; decide
theorem mipTakeX8R8G8B8 : Statement .mipTakeX8R8G8B8 := by unfold Statement; decide
theorem mipTakeA4R4G4B4 : Statement .mipTakeA4R4G4B4 := by unfold Statement; decide
theorem mipTakeA1R5G5B5 : Statement .mipTakeA1R5G5B5 := by unfold Statement; decide
theorem mipTakeL8 : Statement .mipTakeL8 := by unfold Statement; decide
theorem mipTakeA8 : Statement .mipTakeA8 := by unfold Statement; decide
theorem mipTakeD16 : Statement .mipTakeD16 := by unfold Statement; decide
theorem mipTakeR32F : Statement .mipTakeR32F := by unfold Statement; decide
theorem mipTakeG16R16F : Statement .mipTakeG16R16F := by unfold Statement; decide
theorem mipTakeG32R32F : Statement .mipTakeG32R32F := by unfold Statement; decide
theorem mipTakeA16B16G16R16F : Statement .mipTakeA16B16G16R16F := by unfold Statement; decide
theorem mipTakeA32B32G32R32F : Statement .mipTakeA32B32G32R32F := by unfold Statement; decide
theorem mipTakeINVALID : Statement .mipTakeINVALID := by unfold Statement; decide
theorem pixDecodeDXT1 : Statement .pixDecodeDXT1 := by unfold Statement; decide
theorem pixDecodeDXT3 : Statement .pixDecodeDXT3 := by unfold Statement; decide
theorem pixDecodeDXT5 : Statement .pixDecodeDXT5 := by unfold Statement; decide
theorem pixDecodeBC4 : Statement .pixDecodeBC4 := by unfold Statement; decide
theorem pixDecodeBC5 : Statement .pixDecodeBC5 := by unfold Statement; decide
theorem pixDecodeBC7 : Statement .pixDecodeBC7 := by unfold Statement; decide
theorem pixDecodeA8R8G8B8 : Statement .pixDecodeA8R8G8B8 := by unfold Statement; decide
theorem pixDecodeX8R8G8B8 : Statement .pixDecodeX8R8G8B8 := by unfold Statement; decide
theorem pixDecodeA4R4G4B4 : Statement .pixDecodeA4R4G4B4 := by unfold Statement; decide
theorem pixDecodeA1R5G5B5 : Statement .pixDecodeA1R5G5B5 := by unfold Statement; decide
theorem pixDecodeL8 : Statement .pixDecodeL8 := by unfold Statement; decide
theorem pixDecodeA8 : Statement .pixDecodeA8 := by unfold Statement; decide
theorem pixDecodeD16 : Statement .pixDecodeD16 := by unfold Statement; decide
theorem pixDecodeR32F : Statement .pixDecodeR32F := by unfold Statement; decide
theorem pixDecodeG16R16F : Statement .pixDecodeG16R16F := by unfold Statement; decide
theorem pixDecodeG32R32F : Statement .pixDecodeG32R32F := by unfold Statement; decide
theorem pixDecodeA16B16G16R16F : Statement .pixDecodeA16B16G16R16F := by unfold Statement; decide
theorem pixDecodeA32B32G32R32F : Statement .pixDecodeA32B32G32R32F := by unfold Statement; decide
theorem pixDecodeINVALID : Statement .pixDecodeINVALID := by unfold Statement; decide
theorem pixEncodeDXT1 : Statement .pixEncodeDXT1 := by unfold Statement; decide
theorem pixEncodeDXT3 : Statement .pixEncodeDXT3 := by unfold Statement; decide
theorem pixEncodeDXT5 : Statement .pixEncodeDXT5 := by unfold Statement; decide
theorem pixEncodeBC4 : Statement .pixEncodeBC4 := by unfold Statement; decide
theorem pixEncodeBC5 : Statement .pixEncodeBC5 := by unfold Statement; decide
theorem pixEncodeBC7 : Statement .pixEncodeBC7 := by unfold Statement; decide
theorem pixEncodeA8R8G8B8 : Statement .pixEncodeA8R8G8B8 := by unfold Statement; decide
theorem pixEncodeX8R8G8B8 : Statement .pixEncodeX8R8G8B8 := by unfold Statement; decide
theorem pixEncodeA4R4G4B4 : Statement .pixEncodeA4R4G4B4 := by unfold Statement; decide
theorem pixEncodeA1R5G5B5 : Statement .pixEncodeA1R5G5B5 := by unfold Statement; decide
theorem pixEncodeL8 : Statement .pixEncodeL8 := by unfold Statement; decide
theorem pixEncodeA8 : Statement .pixEncodeA8 := by unfold Statement; decide
theorem pixEncodeD16 : Statement .pixEncodeD16 := by unfold Statement; decide
theorem pixEncodeR32F : Statement .pixEncodeR32F := by unfold Statement; decide
theorem pixEncodeG16R16F : Statement .pixEncodeG16R16F := by unfold Statement; decide
theorem pixEncodeG32R32F : Statement .pixEncodeG32R32F := by unfold Statement; decide
theorem pixEncodeA16B16G16R16F : Statement .pixEncodeA16B16G16R16F := by unfold Statement; decide
theorem pixEncodeA32B32G32R32F : Statement .pixEncodeA32B32G32R32F := by unfold Statement; decide
theorem pixEncodeINVALID : Statement .pixEncodeINVALID := by unfold Statement; decide

end Sys2Proof.Laws.Encoding
end

