-- ==== Sys2Proof/Laws/Pixel.lean ====
section
/-! SUPPORT. The pieces of the pixel codec: half-words of a byte sequence, four bytes a pixel, the swap, bit fields, the layer
extraction, and a decode or an encode past its first checks (43_pixel_decode.md, 44_pixel_encode.md). -/

namespace Sys2Proof.Machine

/-- The half-word at a position (20_memory.md R34). -/
theorem halves_getElem? (l : List Byte) (i : Nat) (a b : Byte) (h1 : l[2 * i]? = some a) (h2 : l[2 * i + 1]? = some b) :
    (halves l)[i]? = some (half16 a b) := by
  induction i generalizing l with
  | zero =>
    match l with
    | [] => simp at h1
    | [x] => simp at h2
    | x :: y :: r => simp at h1 h2; simp [halves, h1, h2]
  | succ i ih =>
    match l with
    | [] => simp at h1
    | [x] => simp [Nat.mul_add] at h1
    | x :: y :: r =>
      rw [show 2 * (i + 1) = 2 * i + 1 + 1 by ring, List.getElem?_cons_succ, List.getElem?_cons_succ] at h1
      rw [show 2 * (i + 1) + 1 = 2 * i + 1 + 1 + 1 by ring, List.getElem?_cons_succ, List.getElem?_cons_succ] at h2
      simp only [halves, List.getElem?_cons_succ]
      exact ih r h1 h2

/-- How many half-words a byte sequence holds. -/
theorem length_halves (l : List Byte) : (halves l).length = l.length / 2 := by
  match l with
  | [] => rfl
  | [x] => simp [halves]
  | x :: y :: r => simp only [halves, List.length_cons, length_halves r]; omega

/-- Four output bytes an element: the byte at a position. -/
theorem flatMap_four_getElem? {α : Type} (f : α → List Byte) (hf : ∀ a, (f a).length = 4) (l : List α) (i c : Nat)
    (hc : c < 4) : (l.flatMap f)[4 * i + c]? = (l[i]?).bind fun a => (f a)[c]? := by
  induction l generalizing i with
  | nil => simp
  | cons a l ih =>
    rw [List.flatMap_cons]
    cases i with
    | zero => rw [List.getElem?_append_left (by rw [hf]; omega)]; simp
    | succ i =>
      rw [List.getElem?_append_right (by rw [hf]; omega), hf, show 4 * (i + 1) + c - 4 = 4 * i + c by omega, ih]
      rfl

/-- Four output bytes an element: the length. -/
theorem length_flatMap_four {α : Type} (f : α → List Byte) (hf : ∀ a, (f a).length = 4) (l : List α) :
    (l.flatMap f).length = 4 * l.length := by
  induction l with
  | nil => rfl
  | cons a l ih => rw [List.flatMap_cons, List.length_append, hf, ih, List.length_cons]; ring

/-- The swap keeps the length (44_pixel_encode.md R139). -/
theorem length_swap02 : (b : List Byte) → (swap02 b).length = b.length
  | [] | [_] | [_, _] | [_, _, _] => rfl
  | _ :: _ :: _ :: _ :: rest => by simp only [swap02, List.length_cons, length_swap02 rest]

/-- A masked, shifted and scaled field of a half-word, as a number. -/
theorem field_scaled (p m f : Half) (k w : Nat) (hm : m.toNat >>> k = 2 ^ w - 1) :
    (((p &&& m) >>> k) * f).setWidth 8 = BitVec.ofNat 8 (p.toNat / 2 ^ k % 2 ^ w * f.toNat) := by
  apply BitVec.eq_of_toNat_eq
  simp only [BitVec.toNat_setWidth, BitVec.toNat_mul, BitVec.toNat_ushiftRight, BitVec.toNat_and, BitVec.toNat_ofNat]
  rw [Nat.shiftRight_and_distrib, hm, Nat.and_two_pow_sub_one_eq_mod, Nat.shiftRight_eq_div_pow]
  rw [Nat.mod_mod_of_dvd _ (by norm_num : 2 ^ 8 ∣ 2 ^ 16)]

/-- The fields of a half-float as digits of its number (30_encoding.md R60). -/
theorem half_fields (h : Half) :
    halfSign h = decide (32768 ≤ h.toNat) ∧ halfExp h = h.toNat / 1024 % 32 ∧ halfFrac h = h.toNat % 1024 := by
  refine ⟨?_, ?_, ?_⟩
  · unfold halfSign
    rw [BitVec.getLsbD, Nat.testBit_eq_decide_div_mod_eq]
    have := h.isLt
    congr 1
    rw [eq_iff_iff]
    omega
  · simp [halfExp, Nat.shiftRight_eq_div_pow]
  · simp [halfFrac]

/-- The layer extraction with a target in range (43_pixel_decode.md R112). -/
theorem stage2_of_lt (full : List Byte) {layers : Nat} {target : Int} (h : target < layers) :
    stage2 full layers target = .ok (layerSlice full layers target) := by
  unfold stage2 layerSlice
  split_ifs
  · rfl
  · omega
  · rfl

/-- The layer extraction with a target out of range (43_pixel_decode.md R112). -/
theorem stage2_of_le (full : List Byte) {layers : Nat} {target : Int} (h : (layers : Int) ≤ target) :
    stage2 full layers target = .error .layerRangeFault := by
  unfold stage2
  rw [if_neg (by omega), if_pos h]

/-- The length of what the layer extraction selects. -/
theorem length_layerSlice (full : List Byte) {s : State} (h : s.tlayer.toInt < s.layerCount) :
    (layerSlice full s.layerCount s.tlayer.toInt).length = sliceLength full.length s := by
  unfold layerSlice sliceLength
  split_ifs with h1
  · rfl
  · rw [List.length_take, List.length_drop]
    have h2 : s.tlayer.toInt.toNat + 1 ≤ s.layerCount := by omega
    have h3 := Nat.mul_le_mul_left (full.length / s.layerCount) h2
    have h4 := Nat.div_mul_le_self full.length s.layerCount
    rw [Nat.mul_add] at h3
    omega

/-- A decode past its first checks (43_pixel_decode.md R110). -/
theorem decode_past_checks {v : Variant} {s : State} (hv : v ≠ .invalid) (hw : 0 < s.width.toInt)
    (hh : 0 < s.height.toInt) (hf : fits s.inlen.toNat s.cfg.ibufCap)
    (hlen : hasLengthRule v = true → s.inlen.toNat = pixelCount s * bytesPerPixel v) :
    Command.run (.pixDecode v) s =
      (stage1 s.cfg s.draws (inputBytes s) s.widthOp.toNat s.heightOp.toNat s.layerCount v >>= fun full =>
        stage2 full s.layerCount s.targetLayer >>= fun out => s.complete out) := by
  dsimp only [Command.run, pixDecode]
  rw [if_neg hv, if_neg (show ¬ (s.widthOp ≤ 0 ∨ s.heightOp ≤ 0) by rw [s.widthOp_eq, s.heightOp_eq]; omega),
    if_neg (show ¬ exceeds s.inputLength s.cfg.ibufCap = true by
      rw [show exceeds s.inputLength s.cfg.ibufCap = false from (exceeds_eq_false_iff _ _).2 hf]; simp),
    if_neg (show ¬ (hasLengthRule v = true ∧
        s.inputLength ≠ s.widthOp.toNat * s.heightOp.toNat * s.layerCount * bytesPerPixel v) by
      rintro ⟨a, b⟩; exact b (hlen a)), memRead_inputLength]

/-- An encode past its first checks (44_pixel_encode.md R135). -/
theorem encode_past_checks {v : Variant} {s : State} (hv : v ≠ .invalid) (hf : fits s.inlen.toNat s.cfg.ibufCap)
    (hl : ¬ (swapDue v s.layerCount = true ∧ s.inlen.toNat % 4 ≠ 0)) :
    Command.run (.pixEncode v) s =
      s.complete (if swapDue v s.layerCount = true then swap02 (inputBytes s) else inputBytes s) := by
  dsimp only [Command.run, pixEncode]
  rw [if_neg hv, if_neg (show ¬ exceeds s.inputLength s.cfg.ibufCap = true by
      rw [show exceeds s.inputLength s.cfg.ibufCap = false from (exceeds_eq_false_iff _ _).2 hf]; simp),
    if_neg (show ¬ (swapDue v s.layerCount = true ∧ s.inputLength % 4 ≠ 0) from hl), memRead_inputLength]

end Sys2Proof.Machine
end

