-- ==== Sys2Proof/Laws/Step.lean ====
section
/-! SUPPORT. What one step can do, said once: the step with a pending action, a write of `CMD`, and the inversion of a step
that answers a next state. -/

namespace Sys2Proof.Machine

/-- With no action pending a step changes nothing. -/
theorem step_nil {s : State} (h : s.pending = []) : step s = .next s := by
  unfold step hostStep; rw [h]

/-- With an action pending a step performs it. -/
theorem step_cons {s : State} {a : HostAction} {rest : List HostAction} (h : s.pending = a :: rest) :
    step s = perform a { s with pending := rest } := by
  unfold step hostStep; rw [h]

/-- A command under a well-formed configuration runs what it decodes to, or raises `ILLEGAL_COMMAND`. -/
theorem codecStep_of_wf {s : State} (h : s.cfg.Wf) (w : Word) :
    codecStep w s = match decode w with
      | .ok i => exec i s
      | .error _ => .next (s.raise .illegalCommand) :=
  if_pos h

/-- A command under an ill-formed configuration is refused. -/
theorem codecStep_of_not_wf {s : State} (h : ¬ s.cfg.Wf) (w : Word) : codecStep w s = .refused .illFormedConfig :=
  if_neg h

/-- A write of `CMD` is the `CODEC` step on the state that holds the word. -/
theorem perform_writeCmd (s : State) (w : Word) :
    perform (.writeReg .cmd w) s = codecStep w { s with cmd := w } := rfl

/-- A write of any other register answers the state that holds the word. -/
theorem perform_writeReg {r : Reg} (h : r ≠ .cmd) (w : Word) (s : State) :
    perform (.writeReg r w) s = .next (s.hostSet r w) := by
  cases r <;> first | rfl | exact absurd rfl h

/-- With a command word placed, the step is the `CODEC` step for it. -/
theorem step_withFetchWord (s : State) (n w : Nat) :
    step (s.withFetchWord n w) = codecStep (BitVec.ofNat 32 w) { s with cmd := BitVec.ofNat 32 w } := rfl

/-- Everything a command that answers a next state can do: an operation's success, or an exception taken. -/
theorem codecStep_next {s t : State} {w : Word} (h : codecStep w s = .next t) :
    (∃ i out, decode w = .ok i ∧ FinishedWith s t out i.command.writes) ∨ (∃ e, t = s.raise e) := by
  by_cases hw : s.cfg.Wf
  · rw [codecStep_of_wf hw] at h
    split at h
    · rename_i i hi
      rcases exec_cases i s with ⟨u, out, hu, hf⟩ | ⟨e, hu⟩ <;> rw [hu] at h <;> cases h
      · exact .inl ⟨i, out, hi, hf⟩
      · exact .inr ⟨e, rfl⟩
    · cases h
      exact .inr ⟨_, rfl⟩
  · rw [codecStep_of_not_wf hw] at h
    cases h

/-- A command never stops with a fault. -/
theorem codecStep_ne_fault {s : State} {w : Word} {f : Fault} : codecStep w s ≠ .fault f := by
  by_cases hw : s.cfg.Wf
  · rw [codecStep_of_wf hw]
    split
    · rename_i i _
      rcases exec_cases i s with ⟨u, _, hu, -⟩ | ⟨e, hu⟩ <;> rw [hu] <;> simp
    · simp
  · rw [codecStep_of_not_wf hw]
    simp

/-- Everything a step that answers a next state can do. -/
theorem step_cases {s t : State} (h : step s = .next t) :
    (s.pending = [] ∧ t = s) ∨
    (∃ w rest i out, s.pending = .writeReg .cmd w :: rest ∧ decode w = .ok i ∧
      FinishedWith { s with pending := rest, cmd := w } t out i.command.writes) ∨
    (∃ w rest e, s.pending = .writeReg .cmd w :: rest ∧ t = ({ s with pending := rest, cmd := w } : State).raise e) ∨
    (∃ r w rest, s.pending = .writeReg r w :: rest ∧ r ≠ .cmd ∧ t = ({ s with pending := rest } : State).hostSet r w) ∨
    (∃ a b rest, s.pending = .writeIbuf a b :: rest ∧ exceeds (a + 1) s.cfg.ibufCap = false ∧
      t = { s with pending := rest, ibuf := s.ibuf.put a b }) ∨
    (∃ a rest v n, s.pending = a :: rest ∧ (∀ rest', s.pending ≠ .reset :: rest') ∧
      t = { s with pending := rest, returned := v :: s.returned, draws := n }) ∨
    (∃ rest, s.pending = .reset :: rest ∧ t = ({ s with pending := rest } : State).applyReset) := by
  cases hp : s.pending with
  | nil =>
    rw [step_nil hp] at h; cases h
    exact .inl ⟨rfl, rfl⟩
  | cons a rest =>
    rw [step_cons hp] at h
    refine .inr ?_
    cases a with
    | writeReg r w =>
      by_cases hr : r = .cmd
      · subst hr
        rw [perform_writeCmd] at h
        rcases codecStep_next h with ⟨i, out, hi, hf⟩ | ⟨e, rfl⟩
        · exact .inl ⟨w, rest, i, out, rfl, hi, hf⟩
        · exact .inr (.inl ⟨w, rest, e, rfl, rfl⟩)
      · rw [perform_writeReg hr] at h; cases h
        exact .inr (.inr (.inl ⟨r, w, rest, rfl, hr, rfl⟩))
    | readReg r =>
      cases h
      exact .inr (.inr (.inr (.inr (.inl ⟨_, rest, _, s.draws, rfl, by simp, rfl⟩))))
    | writeIbuf a b =>
      simp only [perform, writeInputByte] at h
      split_ifs at h with hx
      cases h
      exact .inr (.inr (.inr (.inl ⟨a, b, rest, rfl, by simpa using hx, rfl⟩)))
    | readObuf a =>
      simp only [perform, readOutputByte] at h
      split_ifs at h
      split at h <;> cases h
      · exact .inr (.inr (.inr (.inr (.inl ⟨_, rest, _, s.draws, rfl, by simp, rfl⟩))))
      · exact .inr (.inr (.inr (.inr (.inl ⟨_, rest, _, s.draws + 1, rfl, by simp, rfl⟩))))
    | reset =>
      cases h
      exact .inr (.inr (.inr (.inr (.inr ⟨rest, rfl, rfl⟩))))

/-- A run of one step more, after a step that answers a next state. -/
theorem core_run_succ (M : Host.Core) (n : Nat) (s t : M.State) (h : M.step s = .next t) :
    M.run (n + 1) s = M.run n t := by
  simp only [Host.Core.run, h]

/-- A run of one step is the step. -/
theorem core_run_one (M : Host.Core) (s : M.State) : M.run 1 s = M.step s := by
  simp only [Host.Core.run]
  cases M.step s <;> rfl

/-- The same of this machine. -/
theorem run_succ {n : Nat} {s t : State} (h : step s = .next t) :
    Sys2Proof.core.run (n + 1) s = Sys2Proof.core.run n t :=
  core_run_succ Sys2Proof.core n s t h

/-- The same of this machine. -/
theorem run_one (s : State) : Sys2Proof.core.run 1 s = step s := core_run_one Sys2Proof.core s

end Sys2Proof.Machine
end

