-- ==== Sys2Proof/Tests/Slice0.lean ====
section
/-! SUPPORT. The model's own tests. Expected results are the vectors V<n> of 95_test_vectors.md, words of opcode_table.json, or
hand calculation from the rules. Then, for every statement with hypotheses, a witness that meets them. -/

namespace Sys2Proof.Tests

open Sys2Proof Sys2Proof.Machine

set_option maxRecDepth 20000

/-! ### Helpers -/

/-- The reset state with these operands and this input. -/
def given (w h layers mips target : Word) (input : List Byte) : State :=
  { State.reset with
    width := w, height := h, layers := layers, mips := mips, tlayer := target,
    inlen := BitVec.ofNat 32 input.length, ibuf := Memory.ofBytes 0 input }

/-- The state after an instruction that answers one, else the state before. -/
def after (i : Instr) (s : State) : State :=
  match exec i s with
  | .next t => t
  | .fault _ | .refused _ => s

/-- `STATUS` and the bytes of `OBUF`. -/
def seen (i : Instr) (s : State) : Word × List Byte := ((after i s).status, (after i s).obuf.map Prod.snd)

/-- `STATUS`, `OUTLEN` and `RMIPS`. -/
def counts (i : Instr) (s : State) : Word × Word × Word :=
  ((after i s).status, (after i s).outlen, (after i s).rmips)

/-- What a list of words decodes to. -/
def decodeAll (ws : List Word) : List (Option Instr) := ws.map fun w => (decode w).toOption

/-! ### Decoding: every constructor's word, written out from 30_encoding.md R46 to R48 -/

/-- `CAT.FOURCC`. -/
theorem test_decode_catFourcc : decodeAll
    [0x00000001, 0x00000101, 0x00000201, 0x00000301, 0x00000401, 0x00000501, 0x00000601, 0x00000701, 0x00000801,
     0x00000901, 0x00000A01, 0x00000B01, 0x00000C01, 0x00000D01, 0x00000E01, 0x00000F01, 0x00001001, 0x00001101,
     0x00001201] =
    [some .catFourccDXT1, some .catFourccDXT3, some .catFourccDXT5, some .catFourccBC4,
     some .catFourccBC5, some .catFourccBC7, some .catFourccA8R8G8B8, some .catFourccX8R8G8B8,
     some .catFourccA4R4G4B4, some .catFourccA1R5G5B5, some .catFourccL8, some .catFourccA8,
     some .catFourccD16, some .catFourccR32F, some .catFourccG16R16F, some .catFourccG32R32F,
     some .catFourccA16B16G16R16F, some .catFourccA32B32G32R32F, some .catFourccINVALID] := by decide

/-- `CAT.DXGI`. -/
theorem test_decode_catDxgi : decodeAll
    [0x00000002, 0x00000102, 0x00000202, 0x00000302, 0x00000402, 0x00000502, 0x00000602, 0x00000702, 0x00000802,
     0x00000902, 0x00000A02, 0x00000B02, 0x00000C02, 0x00000D02, 0x00000E02, 0x00000F02, 0x00001002, 0x00001102,
     0x00001202] =
    [some .catDxgiDXT1, some .catDxgiDXT3, some .catDxgiDXT5, some .catDxgiBC4,
     some .catDxgiBC5, some .catDxgiBC7, some .catDxgiA8R8G8B8, some .catDxgiX8R8G8B8,
     some .catDxgiA4R4G4B4, some .catDxgiA1R5G5B5, some .catDxgiL8, some .catDxgiA8,
     some .catDxgiD16, some .catDxgiR32F, some .catDxgiG16R16F, some .catDxgiG32R32F,
     some .catDxgiA16B16G16R16F, some .catDxgiA32B32G32R32F, some .catDxgiINVALID] := by decide

/-- `HDR.BUILD`. -/
theorem test_decode_hdrBuild : decodeAll
    [0x00000010, 0x00000110, 0x00000210, 0x00000310, 0x00000410, 0x00000510, 0x00000610, 0x00000710, 0x00000810,
     0x00000910, 0x00000A10, 0x00000B10, 0x00000C10, 0x00000D10, 0x00000E10, 0x00000F10, 0x00001010, 0x00001110,
     0x00001210] =
    [some .hdrBuildDXT1, some .hdrBuildDXT3, some .hdrBuildDXT5, some .hdrBuildBC4,
     some .hdrBuildBC5, some .hdrBuildBC7, some .hdrBuildA8R8G8B8, some .hdrBuildX8R8G8B8,
     some .hdrBuildA4R4G4B4, some .hdrBuildA1R5G5B5, some .hdrBuildL8, some .hdrBuildA8,
     some .hdrBuildD16, some .hdrBuildR32F, some .hdrBuildG16R16F, some .hdrBuildG32R32F,
     some .hdrBuildA16B16G16R16F, some .hdrBuildA32B32G32R32F, some .hdrBuildINVALID] := by decide

/-- `MIP.SIZES`. -/
theorem test_decode_mipSizes : decodeAll
    [0x00000020, 0x00000120, 0x00000220, 0x00000320, 0x00000420, 0x00000520, 0x00000620, 0x00000720, 0x00000820,
     0x00000920, 0x00000A20, 0x00000B20, 0x00000C20, 0x00000D20, 0x00000E20, 0x00000F20, 0x00001020, 0x00001120,
     0x00001220] =
    [some .mipSizesDXT1, some .mipSizesDXT3, some .mipSizesDXT5, some .mipSizesBC4,
     some .mipSizesBC5, some .mipSizesBC7, some .mipSizesA8R8G8B8, some .mipSizesX8R8G8B8,
     some .mipSizesA4R4G4B4, some .mipSizesA1R5G5B5, some .mipSizesL8, some .mipSizesA8,
     some .mipSizesD16, some .mipSizesR32F, some .mipSizesG16R16F, some .mipSizesG32R32F,
     some .mipSizesA16B16G16R16F, some .mipSizesA32B32G32R32F, some .mipSizesINVALID] := by decide

/-- `MIP.TAKE`. -/
theorem test_decode_mipTake : decodeAll
    [0x00000021, 0x00000121, 0x00000221, 0x00000321, 0x00000421, 0x00000521, 0x00000621, 0x00000721, 0x00000821,
     0x00000921, 0x00000A21, 0x00000B21, 0x00000C21, 0x00000D21, 0x00000E21, 0x00000F21, 0x00001021, 0x00001121,
     0x00001221] =
    [some .mipTakeDXT1, some .mipTakeDXT3, some .mipTakeDXT5, some .mipTakeBC4,
     some .mipTakeBC5, some .mipTakeBC7, some .mipTakeA8R8G8B8, some .mipTakeX8R8G8B8,
     some .mipTakeA4R4G4B4, some .mipTakeA1R5G5B5, some .mipTakeL8, some .mipTakeA8,
     some .mipTakeD16, some .mipTakeR32F, some .mipTakeG16R16F, some .mipTakeG32R32F,
     some .mipTakeA16B16G16R16F, some .mipTakeA32B32G32R32F, some .mipTakeINVALID] := by decide

/-- `PIX.DECODE`. -/
theorem test_decode_pixDecode : decodeAll
    [0x00000030, 0x00000130, 0x00000230, 0x00000330, 0x00000430, 0x00000530, 0x00000630, 0x00000730, 0x00000830,
     0x00000930, 0x00000A30, 0x00000B30, 0x00000C30, 0x00000D30, 0x00000E30, 0x00000F30, 0x00001030, 0x00001130,
     0x00001230] =
    [some .pixDecodeDXT1, some .pixDecodeDXT3, some .pixDecodeDXT5, some .pixDecodeBC4,
     some .pixDecodeBC5, some .pixDecodeBC7, some .pixDecodeA8R8G8B8, some .pixDecodeX8R8G8B8,
     some .pixDecodeA4R4G4B4, some .pixDecodeA1R5G5B5, some .pixDecodeL8, some .pixDecodeA8,
     some .pixDecodeD16, some .pixDecodeR32F, some .pixDecodeG16R16F, some .pixDecodeG32R32F,
     some .pixDecodeA16B16G16R16F, some .pixDecodeA32B32G32R32F, some .pixDecodeINVALID] := by decide

/-- `PIX.ENCODE`. -/
theorem test_decode_pixEncode : decodeAll
    [0x00000031, 0x00000131, 0x00000231, 0x00000331, 0x00000431, 0x00000531, 0x00000631, 0x00000731, 0x00000831,
     0x00000931, 0x00000A31, 0x00000B31, 0x00000C31, 0x00000D31, 0x00000E31, 0x00000F31, 0x00001031, 0x00001131,
     0x00001231] =
    [some .pixEncodeDXT1, some .pixEncodeDXT3, some .pixEncodeDXT5, some .pixEncodeBC4,
     some .pixEncodeBC5, some .pixEncodeBC7, some .pixEncodeA8R8G8B8, some .pixEncodeX8R8G8B8,
     some .pixEncodeA4R4G4B4, some .pixEncodeA1R5G5B5, some .pixEncodeL8, some .pixEncodeA8,
     some .pixEncodeD16, some .pixEncodeR32F, some .pixEncodeG16R16F, some .pixEncodeG32R32F,
     some .pixEncodeA16B16G16R16F, some .pixEncodeA32B32G32R32F, some .pixEncodeINVALID] := by decide

/-- The three operations that take no variant. -/
theorem test_decode_plain : decodeAll [0x00000003, 0x00000004, 0x00000011] =
    [some .catVfourcc, some .catVdxgi, some .hdrParse] := by decide

/-- Words that are no instruction, with the condition of R49 each falls under (V29l, V29v, V54, P5). -/
theorem test_illegal :
    [0x00010930, 0x00000000, 0x000000FF, 0x00000503, 0x00000111, 0x00001310, 0x00001301].map (fun w => decode w) =
    [.error .highBitsSet, .error .unknownOperation, .error .unknownOperation, .error .variantNotTaken,
     .error .variantNotTaken, .error .variantOutOfRange, .error .variantOutOfRange] := rfl

/-- The host's numbering of an instruction's bits is the word itself. -/
theorem test_decodeTableWord :
    decodeTableWord 32 0x00000610 = some .hdrBuildA8R8G8B8 ∧ decodeTableWord 32 0x100000610 = none := by decide

/-! ### WellFormed: an ill-formed term for each check, which the check refuses -/

/-- The default configuration with another catalog. -/
def withCatalog (f : Catalog → Catalog) : Config := { Config.defaults with catalog := f .defaults }

theorem test_defaults_wf : Config.defaults.Wf := by decide

/-- Two variants with one FourCC (R74 (a)). -/
theorem test_wf_fourCCs : ¬ (withCatalog fun c => { c with dxt3 := ⟨0x31545844, 74⟩ }).Wf ∧
    ¬ (withCatalog fun c => { c with dxt3 := ⟨0x31545844, 74⟩ }).FourCCsDistinct := by decide

/-- A FourCC that is the sentinel (R74 (b)). -/
theorem test_wf_sentinel : ¬ (withCatalog fun c => { c with bc7 := ⟨0x30315844, 98⟩ }).Wf ∧
    ¬ (withCatalog fun c => { c with bc7 := ⟨0x30315844, 98⟩ }).SentinelIsNoFourCC := by decide

/-- Two variants with one DXGI code (R74 (c)). -/
theorem test_wf_dxgis : ¬ (withCatalog fun c => { c with a8 := ⟨0, 61⟩ }).Wf ∧
    ¬ (withCatalog fun c => { c with a8 := ⟨0, 61⟩ }).DxgisDistinct := by decide

/-- A variant with no code (R74 (d)). -/
theorem test_wf_resolves : ¬ (withCatalog fun c => { c with d16 := ⟨0, 0⟩ }).Wf ∧
    ¬ (withCatalog fun c => { c with d16 := ⟨0, 0⟩ }).EveryVariantResolves := by decide

/-- A sentinel of zero (U3). -/
theorem test_wf_sentinel_zero : ¬ ({ Config.defaults with extSentinel := 0 } : Config).Wf ∧
    ¬ ({ Config.defaults with extSentinel := 0 } : Config).SentinelNotZero := by decide

/-- A `SET` line of a register the host may not set so, and of a value that is no 32-bit word (R66). -/
theorem test_wf_line : ¬ (HostLine.set .status 0).Wf ∧ ¬ (HostLine.set .cmd 1).Wf ∧ ¬ (HostLine.set .width (2 ^ 32)).Wf ∧
    ¬ (HostLine.set .width (-2147483649)).Wf ∧ (HostLine.set .width (-2147483648)).Wf ∧
    (HostLine.set .code 4294967295).Wf := by decide

/-! ### Host programs (R66) -/

theorem test_parse_set : parseLine "SET TLAYER, -1 ; no extraction".toList = some (.set .tlayer (-1)) := by decide
theorem test_parse_hex : parseLine "SET WIDTH, 0x40".toList = some (.set .width 64) := by decide
theorem test_parse_ibuf : parseLine "IBUF FF 0a".toList = some (.ibuf [0xFF, 0x0A]) := by decide
theorem test_parse_command : parseLine "CAT.DXGI.BC7".toList = some (.command .catDxgiBC7) := by decide
theorem test_parse_bad : parseLine "SET STATUS, 1".toList = none ∧ parseLine "CAT.DXGI".toList = none := by decide

/-! ### Reset and the interface (V75, V76, V80) -/

theorem test_reset : (State.reset.reg .status, State.reset.reg .outlen, State.reset.reg .tlayer) =
    (0, 0, 0xFFFFFFFF) := by decide

/-- V76: a host write of `OUTLEN` is ignored. -/
theorem test_write_ignored : ((State.reset.hostSet .width 5).hostSet .outlen 7).reg .outlen = 0 ∧
    ((State.reset.hostSet .width 5).hostSet .outlen 7).reg .width = 5 := by decide

/-- The step with a command word placed runs it, and stores it (V80). -/
theorem test_step : step (State.reset.withFetchWord 32 0x00000201) = exec .catFourccDXT5 { State.reset with cmd := 0x201 } :=
  rfl

/-- A little-endian field (R32) is read as it is written. -/
theorem test_le32 : le32 0x20534444 = [0x44, 0x44, 0x53, 0x20] ∧ word32 0x44 0x44 0x53 0x20 = 0x20534444 := by decide

/-! ### FormatCatalog (V12 to V19, V77) -/

theorem test_V12 : (after .catFourccDXT5 State.reset).rcode = 0x35545844 ∧
    seen .catFourccDXT5 State.reset = (0x001, []) := by decide
theorem test_V13 : (after .catFourccBC7 State.reset).rcode = 0 ∧ (after .catFourccBC7 State.reset).status = 0x001 := by
  decide
theorem test_V14 : (after .catDxgiBC7 State.reset).rcode = 98 := by decide
theorem test_V15 : (after .catFourccINVALID State.reset).status = 0x112 := by decide
theorem test_V16 : (after .catVfourcc { State.reset with code := 0x31545844 }).rvariant = 0 ∧
    (after .catVfourcc { State.reset with code := 0x31545844 }).status = 0x001 := by decide
theorem test_V17_V18 : (after .catVfourcc State.reset).status = 0x112 ∧
    (after .catVfourcc { State.reset with code := 0x30315844 }).status = 0x112 := by decide
theorem test_V19 : (after .catVdxgi { State.reset with code := 87 }).rvariant = 6 ∧
    (after .catVdxgi { State.reset with code := 115 }).rvariant = 8 := by decide
theorem test_V19_none : (after .catVdxgi { State.reset with code := 28 }).status = 0x112 := by decide
theorem test_V77 : (after .catFourccDXT1 (after .catFourccINVALID State.reset)).status = 0x101 := by decide

/-! ### HeaderBuilder (V20 to V29) -/

/-- The 128 bytes of V20. -/
def header20 : List Byte :=
  [0x44, 0x44, 0x53, 0x20, 0x7C, 0, 0, 0, 0x07, 0x10, 0x08, 0, 0, 0x01, 0, 0]
    ++ [0, 0x01, 0, 0, 0, 0x80, 0, 0, 0, 0, 0, 0, 0x09, 0, 0, 0]
    ++ List.replicate 44 0 ++ [0x20, 0, 0, 0]
    ++ [0x04, 0, 0, 0, 0x44, 0x58, 0x54, 0x31, 0, 0, 0, 0, 0, 0, 0, 0]
    ++ [0, 0, 0, 0, 0, 0, 0, 0, 0, 0, 0, 0, 0, 0x10, 0x40, 0] ++ List.replicate 16 0

/-- The 148 bytes of V23. -/
def header23 : List Byte :=
  [0x44, 0x44, 0x53, 0x20, 0x7C, 0, 0, 0, 0x0F, 0x10, 0, 0, 0x20, 0, 0, 0]
    ++ [0x40, 0, 0, 0, 0, 0x01, 0, 0, 0, 0, 0, 0, 0x01, 0, 0, 0]
    ++ List.replicate 44 0 ++ [0x20, 0, 0, 0]
    ++ [0x41, 0, 0, 0, 0x44, 0x58, 0x31, 0x30, 0x20, 0, 0, 0, 0, 0, 0xFF, 0]
    ++ [0, 0xFF, 0, 0, 0xFF, 0, 0, 0, 0, 0, 0, 0xFF, 0, 0x10, 0, 0] ++ List.replicate 16 0
    ++ [0x57, 0, 0, 0, 0x03, 0, 0, 0, 0, 0, 0, 0, 0x02, 0, 0, 0] ++ [0, 0, 0, 0]

/-- The reset state with these bytes as the input. -/
def fed (input : List Byte) : State := given 0 0 0 0 0xFFFFFFFF input

theorem test_V20 : seen .hdrBuildDXT1 (given 256 256 1 9 0 []) = (0x001, header20) ∧
    (after .hdrBuildDXT1 (given 256 256 1 9 0 [])).rcode = 32768 := by decide
theorem test_V21 : (after .hdrBuildBC7 (given 4 4 1 1 0 [])).rcode = 16 ∧
    (after .hdrBuildBC7 (given 4 4 1 1 0 [])).outlen = 148 := by decide
/-- V22: masks, the sentinel and an array size of 1 for a layer count of 0. -/
theorem test_V22 : ((seen .hdrBuildA1R5G5B5 (given 5 3 0 1 0 [])).2.drop 80).take 28 =
    [0x41, 0, 0, 0, 0x44, 0x58, 0x31, 0x30, 0x10, 0, 0, 0, 0, 0x7C, 0, 0, 0xE0, 0x03, 0, 0, 0x1F, 0, 0, 0,
     0, 0x80, 0, 0] ∧
    ((seen .hdrBuildA1R5G5B5 (given 5 3 0 1 0 [])).2.drop 128) =
      [0x56, 0, 0, 0, 0x03, 0, 0, 0, 0, 0, 0, 0, 0x01, 0, 0, 0, 0, 0, 0, 0] := by decide
theorem test_V23 : seen .hdrBuildA8R8G8B8 (given 64 32 2 1 0 []) = (0x001, header23) ∧
    (after .hdrBuildA8R8G8B8 (given 64 32 2 1 0 [])).rcode = 256 := by decide
theorem test_V24 : (after .hdrBuildDXT1 (given 1 1 1 1 0 [])).rcode = 0 := by decide
theorem test_V25 : fieldAt (seen .hdrBuildL8 (given 7 2 1 2 0 [])).2 80 = 0x20000 ∧
    fieldAt (seen .hdrBuildL8 (given 7 2 1 2 0 [])).2 108 = 0x401000 := by decide
theorem test_V26 : fieldAt (seen .hdrBuildA16B16G16R16F (given 2 2 1 1 0 [])).2 84 = 0x71 ∧
    (after .hdrBuildA16B16G16R16F (given 2 2 1 1 0 [])).outlen = 128 := by decide
theorem test_V27 : fieldAt (seen .hdrBuildDXT5 (given 16 8 6 5 0 [])).2 84 = 0x30315844 ∧
    fieldAt (seen .hdrBuildDXT5 (given 16 8 6 5 0 [])).2 140 = 6 := by decide
theorem test_V28 : fieldAt (seen .hdrBuildD16 (given 1024 512 1 1 0 [])).2 80 = 4 ∧
    fieldAt (seen .hdrBuildD16 (given 1024 512 1 1 0 [])).2 128 = 55 := by decide
theorem test_V29b : (after .hdrBuildINVALID State.reset).status = 0x112 := by decide
theorem test_V29d : (after .hdrBuildDXT3 (given 0x80000000 4 1 1 0 [])).status = 0x142 := by decide
theorem test_V29g : (after .hdrBuildA8R8G8B8 (given 0x40000000 1 1 1 0 [])).status = 0x172 := by decide

/-- V23's bytes, parsed. -/
theorem test_V23_parse :
    resultRegs.map (after .hdrParse (fed header23)).reg = [6, 64, 32, 2, 1, 148] := by decide
/-- V29 (a). -/
theorem test_V29a : resultRegs.map (after .hdrParse (fed header20)).reg = [0, 256, 256, 1, 9, 128] := by decide

/-! ### MipPyramid (V6, V7, V30 to V45) -/

theorem test_V6 : levelSizes .dxt1 256 256 = [32768, 8192, 2048, 512, 128, 32, 8, 8, 8] := by decide
theorem test_V7 : (after .mipTakeDXT1 (given 16 16 0 10 0 [])).status = 0x122 := by decide
theorem test_V30 : levelSizes .dxt5 16 16 = [256, 64, 16, 16, 16] := by decide
theorem test_V31 : seen .mipSizesA8R8G8B8 (given 8 2 0 0 0 []) =
    (0x001, [0x40, 0, 0, 0, 0x10, 0, 0, 0, 0x08, 0, 0, 0, 0x04, 0, 0, 0]) := by decide
theorem test_V33 : levelSizes .dxt1 1 1 = [8] := by decide
theorem test_V34 : levelSizes .bc7 5 3 = [20, 16, 16] := by decide
theorem test_V35 : levelSizes .a32b32g32r32f 3 5 = [240, 32, 16] := by decide
theorem test_V36 : counts .mipSizesA1R5G5B5 (given 4 4 0 0 0 []) = (0x001, 12, 3) := by decide
theorem test_V38 : (after .mipSizesDXT3 (given 65536 65536 0 0 0 [])).status = 0x172 := by decide
theorem test_V39 : counts .mipSizesDXT1 (given 65536 65536 0 0 0 []) = (0x001, 68, 17) := by decide
theorem test_V41 : counts .mipTakeDXT1 (given 16 16 0 3 0 []) = (0x001, 12, 5) := by decide
theorem test_V44 : (after .mipTakeDXT3 (given 65536 65536 0 18 0 [])).status = 0x122 ∧
    (after .mipTakeDXT3 (given 65536 65536 0 17 0 [])).status = 0x172 := by decide
/-- R104's "always exact" does not hold of a 5 by 5 level of a 4-bit block format: 100 bits are 12 bytes and a half
(hand calculation from R100; log entry 20). -/
theorem test_odd_block : levelSizes .dxt1 5 5 = [12, 8, 8] := by decide

/-! ### PixelCodec decode (V1, V3, V46 to V54) -/

theorem test_V1 : seen .pixDecodeA1R5G5B5 (given 1 1 1 0 0xFFFFFFFF [0xFF, 0xFF]) = (0x001, [0xF8, 0xF8, 0xF8, 0xFF]) := by
  decide
theorem test_V3 : unpack5551 0x0200 = [0, 0x80, 0, 0] := by decide
theorem test_V46 : seen .pixDecodeA1R5G5B5 (given 2 1 2 0 1 [0xFF, 0xFF, 0, 0, 0, 0x80, 0, 0x7C]) =
    (0x001, [0, 0, 0, 0xFF, 0xF8, 0, 0, 0]) := by decide
theorem test_V47 : [0x8000, 0x7C00, 0x03E0, 0x001F, 0x1234].map unpack5551 =
    [[0, 0, 0, 0xFF], [0xF8, 0, 0, 0], [0, 0xF8, 0, 0], [0, 0, 0xF8, 0], [0x20, 0x88, 0xA0, 0]] := by decide
theorem test_V48 : unpack4444 .sixteen 0x1234 = [0x20, 0x30, 0x40, 0x10] ∧
    unpack4444 .seventeen 0xABCD = [0xBB, 0xCC, 0xDD, 0xAA] ∧ unpack4444 .sixteen 0x0F00 = [0xF0, 0, 0, 0] := by decide
theorem test_V49 : seen .pixDecodeL8 (given 2 2 1 0 0xFFFFFFFF [0, 0x7F, 0x80, 0xFF]) =
    (0x001, [0, 0, 0, 0xFF, 0x7F, 0x7F, 0x7F, 0xFF, 0x80, 0x80, 0x80, 0xFF, 0xFF, 0xFF, 0xFF, 0xFF]) := by decide
theorem test_V50 : seen .pixDecodeA8R8G8B8 (given 2 1 1 0 0xFFFFFFFF [0x11, 0x22, 0x33, 0x44, 0xAA, 0xBB, 0xCC, 0xDD]) =
    (0x001, [0x33, 0x22, 0x11, 0x44, 0xCC, 0xBB, 0xAA, 0xDD]) := by decide
theorem test_V51 : seen .pixDecodeA16B16G16R16F (given 1 1 1 0 0xFFFFFFFF [0, 0xBC, 0x55, 0x35, 0, 0x7C, 0, 0xFC]) =
    (0x001, [0, 0x55, 0xFF, 0]) := by decide
theorem test_V51_table : [0x0001, 0x1804, 0x1805, 0x1E07, 0x3266, 0x3800, 0x3BF3, 0x3BF4, 0x3BFC, 0x3C01, 0x8001].map
    (halfToByte 7) = [0, 0, 1, 2, 51, 128, 253, 254, 255, 255, 0] := by decide
/-- NaNs give the draw, whatever it is. -/
theorem test_V51_nan (nan : Byte) : [0x7E00, 0x7C01, 0xFE00].map (halfToByte nan) = [nan, nan, nan] := rfl
theorem test_V52_d16 : seen .pixDecodeD16 (given 9 9 2 0 1 [1, 2, 3, 4, 5, 6, 7]) = (0x001, [4, 5, 6]) := by decide
theorem test_V52_x8 : seen .pixDecodeX8R8G8B8 (given 1 1 2 0 0 [0x11, 0x22, 0x33, 0x44, 0x55, 0x66, 0x77, 0x88]) =
    (0x001, [0x11, 0x22, 0x33, 0x44]) := by decide

/-- A configuration whose block decompressor answers V53's call. -/
def blockConfig (answer : Option (List Byte)) : Config :=
  { Config.defaults with blockAnswers := [⟨List.replicate 16 7, 4, 8, .dxt1, answer⟩] }

/-- V53's operands under that configuration. -/
def blockState (answer : Option (List Byte)) (target : Word) : State :=
  { given 4 4 2 0 target (List.replicate 16 7) with cfg := blockConfig answer }

theorem test_V53 : seen .pixDecodeDXT1 (blockState (some (List.replicate 128 0x10)) 1) = (0x001, List.replicate 64 0x10) := by
  decide
theorem test_V53_faults : (after .pixDecodeDXT1 (blockState none 1)).status = 0x1A2 ∧
    (after .pixDecodeDXT1 (blockState (some (List.replicate 127 0x10)) 1)).status = 0x1A2 := by decide
theorem test_V54 : (after .pixDecodeA1R5G5B5 (given 2 2 1 0 0 (List.replicate 10 0))).status = 0x152 ∧
    (after .pixDecodeL8 (given 1 1 3 0 3 [0, 0])).status = 0x152 := by decide
theorem test_V54_layer : (after .pixDecodeA8 (given 1 1 0 0 1 [0x7F])).status = 0x162 ∧
    seen .pixDecodeA8 (given 1 1 0 0 0 [0x7F]) = (0x001, [0x7F, 0x7F, 0x7F, 0xFF]) := by decide

/-! ### PixelCodec encode (V60 to V68) -/

theorem test_V60 : seen .pixEncodeA8R8G8B8 (given 0 0 2 0 0 [1, 2, 3, 4, 5, 6, 7, 8]) = (0x001, [3, 2, 1, 4, 7, 6, 5, 8]) := by
  decide
theorem test_V62 : seen .pixEncodeA8R8G8B8 (given 0 0 0 0 0 [1, 2, 3, 4, 5, 6, 7, 8]) = (0x001, [1, 2, 3, 4, 5, 6, 7, 8]) := by
  decide
theorem test_V65 : seen .pixEncodeX8R8G8B8 (given 0 0 2 0 0 [1, 2, 3, 4]) = (0x001, [1, 2, 3, 4]) := by decide
theorem test_V66 : seen .pixEncodeA1R5G5B5 (given 0 0 5 0 0 [0xFF, 0xFF]) = (0x001, [0xFF, 0xFF]) := by decide
theorem test_V68 : (after .pixEncodeINVALID State.reset).status = 0x112 := by decide

/-! ### Witnesses: for every statement with hypotheses, and each of its clauses, operands that meet them together -/

/-- The reset state with one action pending. -/
def pendingOne (a : HostAction) : State := { State.reset with pending := [a] }

/-- The reset state with these buffer capacities. -/
def capped (ibufCap obufCap : Option Nat) (s : State) : State :=
  { s with cfg := { s.cfg with ibufCap := ibufCap, obufCap := obufCap } }

/-- `after` is where an instruction goes. -/
theorem exec_after (i : Instr) (s : State) : exec i s = .next (after i s) := by
  unfold after
  rcases exec_cases i s with ⟨t, _, h, -⟩ | ⟨e, h⟩ <;> rw [h]

/-- `IllegalCommandExactlyUnderTheFourConditions`: the least and the greatest word of each clause. -/
theorem witness_illegalCommand :
    State.reset.cfg.Wf ∧ (0x00010001 : Word).toNat / 65536 ≠ 0 ∧ (0xFFFFFFFF : Word).toNat / 65536 ≠ 0 ∧
    ([0x00, 0xFF].all fun op => op ∉ [0x01, 0x02, 0x10, 0x20, 0x21, 0x30, 0x31] ∧ op ∉ [0x03, 0x04, 0x11]) = true ∧
    (0x0103 : Word).toNat / 256 % 256 ≠ 0 ∧ 18 < (0x1301 : Word).toNat / 256 % 256 ∧
    18 < (0xFF31 : Word).toNat / 256 % 256 ∧ (0x0011 : Word).toNat / 256 % 256 = 0 ∧
    (0x0001 : Word).toNat / 256 % 256 ≤ 18 ∧ (0x1231 : Word).toNat / 256 % 256 = 18 ∧
    decode 0x00001301 = .error .variantOutOfRange := by
  refine ⟨by decide, by decide, by decide, by decide, by decide, by decide, by decide, by decide, by decide, by decide, rfl⟩

/-- `StepRunsTheDecodedInstruction`. -/
theorem witness_stepRuns : (pendingOne (.writeReg .cmd 0x00001231)).pending = .writeReg .cmd 0x00001231 :: [] ∧
    (pendingOne (.writeReg .cmd 0x00001231)).cfg.Wf ∧ decode 0x00001231 = .ok .pixEncodeINVALID :=
  ⟨rfl, by decide, rfl⟩

/-- `HostRegisterWriteChangesOnlyThatRegister`: the registers at the ends of both ranges. -/
theorem witness_registerWrite : [Reg.width, .code, .status, .rcode].map (fun r =>
      ((pendingOne (.writeReg r 5)).pending = [.writeReg r 5] ∧ r ≠ .cmd : Bool)) = [true, true, true, true] ∧
    [Reg.width, .code, .status, .rcode].map regNumber = [1, 7, 8, 15] := by decide

/-- `HostInputWriteChangesOnlyThatByte`: the last index of a capacity, and an index under none. -/
theorem witness_inputWrite :
    (∃ s : State, s.pending = [.writeIbuf 3 9] ∧ s.cfg.ibufCap = some 4 ∧ fits (3 + 1) s.cfg.ibufCap) ∧
    (∃ s : State, s.pending = [.writeIbuf 4294967296 9] ∧ fits (4294967296 + 1) s.cfg.ibufCap) :=
  ⟨⟨capped (some 4) none (pendingOne (.writeIbuf 3 9)), by decide⟩, ⟨pendingOne (.writeIbuf 4294967296 9), by decide⟩⟩

/-- `HostReadsReturnTheValueAndChangeNothing`: a register, the last valid byte, the first byte beyond it, which is the last of
the capacity. -/
theorem witness_hostReads :
    (∃ s : State, s.pending = [.readReg .rcode]) ∧
    (∃ s : State, s.pending = [.readObuf 1] ∧ fits (1 + 1) s.cfg.obufCap ∧ s.obuf.byte? 1 = some 2) ∧
    (∃ s : State, s.pending = [.readObuf 2] ∧ fits (2 + 1) s.cfg.obufCap ∧ s.cfg.obufCap = some 3 ∧
      s.obuf.byte? 2 = none) :=
  ⟨⟨pendingOne (.readReg .rcode), rfl⟩, ⟨{ pendingOne (.readObuf 1) with obuf := [(0, 1), (1, 2)] }, by decide⟩,
    ⟨capped none (some 3) { pendingOne (.readObuf 2) with obuf := [(0, 1), (1, 2)] }, by decide⟩⟩

/-- A command pending under a configuration that violates R74. -/
def illFormed : State :=
  { pendingOne (.writeReg .cmd 0x00000001) with cfg := withCatalog fun c => { c with d16 := ⟨0, 0⟩ } }

/-- `StepStopsOnlyForAbsentIndexOrIllFormedConfig`: each stop happens. -/
theorem witness_stops :
    step (capped (some 4) none (pendingOne (.writeIbuf 4 9))) = .fault .ibufIndexAbsent ∧
    step (capped none (some 0) (pendingOne (.readObuf 0))) = .fault .obufIndexAbsent ∧
    step illFormed = .refused .illFormedConfig := by
  refine ⟨rfl, rfl, ?_⟩
  rw [step_cons (s := illFormed) rfl, perform_writeCmd]
  exact codecStep_of_not_wf (s := { illFormed with pending := [], cmd := 0x00000001 }) (by decide) _

/-- `ResetActionRestoresResetValues`. -/
theorem witness_resetAction : (pendingOne .reset).pending = .reset :: [] := rfl

/-- `EveryStepKeepsTheInvariant` and `NoStepChangesTheConfiguration`: a state with output, an input byte, and a step that
ends in another state. -/
theorem witness_invariant :
    ∃ s t : State, s.Inv ∧ step s = .next t ∧ t ≠ s ∧ s.outlen = 4 ∧ t.outlen = 0 := by
  refine ⟨{ after .mipSizesL8 (given 1 1 0 0 0 [1]) with pending := [.writeReg .cmd 0x00000001] },
    after .catFourccDXT1 { after .mipSizesL8 (given 1 1 0 0 0 [1]) with cmd := 0x00000001 }, ?_, ?_, ?_, by decide, by decide⟩
  · exact {
      status_legal := statusAfterDone_legal _
      ibuf_wf := by decide
      obuf_wf := by decide
      ibuf_within := fun _ _ => rfl
      obuf_within := fun _ _ => rfl
      obuf_valid := fun a => by
        show ((Memory.ofBytes 0 [1, 0, 0, 0]).byte? a).isSome = true ↔ a < 4
        simp
      no_output := fun h => absurd (by decide) h }
  · rfl
  · intro h
    exact absurd (congrArg State.outlen h) (by decide)

/-- `StickyIsSetByErrorsAndClearedByResetOnly`: a step that keeps the flag, and one that sets it. -/
theorem witness_sticky :
    (∃ s t : State, step s = .next t ∧ statusSticky s.status = true ∧ ∀ rest, s.pending ≠ .reset :: rest) ∧
    (∃ s t : State, step s = .next t ∧ statusSticky s.status = false ∧ statusSticky t.status = true) := by
  refine ⟨⟨{ pendingOne (.readReg .status) with status := 0x112 }, _, rfl, by decide, by simp [pendingOne]⟩,
    ⟨pendingOne (.writeReg .cmd 0x00001201), _, rfl, by decide, by decide⟩⟩

/-- `ResultDependsOnlyOnWhatTheOperationReads`: two states that differ in a register and an input byte the operation does
not read. -/
theorem witness_resultDepends : ∃ s₁ s₂ t₁ t₂ : State, s₁ ≠ s₂ ∧
    (∀ r ∈ (Command.pixEncode .l8).reads, s₁.reg r = s₂.reg r) ∧
    (∀ a, a < s₁.inlen.toNat → s₁.ibuf.byte? a = s₂.ibuf.byte? a) ∧ s₁.cfg = s₂.cfg ∧ s₁.draws = s₂.draws ∧
    exec .pixEncodeL8 s₁ = .next t₁ ∧ exec .pixEncodeL8 s₂ = .next t₂ ∧ t₁.outlen = 1 := by
  refine ⟨fed [7], { fed [7] with code := 1, ibuf := [(0, 7), (1, 8)] }, _, _, by decide, by decide, ?_, rfl, rfl,
    exec_after _ _, exec_after _ _, by decide⟩
  intro a ha
  have h0 : a = 0 := by
    have h : a < 1 := ha
    omega
  subst h0
  rfl

/-- `RepeatedCommandRepeatsItsOutcome`: an operation that reads no input, and one that reads a byte that holds a value. -/
theorem witness_repeated :
    (∃ t, exec .mipSizesL8 (given 1 1 0 0 0 []) = .next t ∧ (Command.mipSizes .l8).readsInput = false ∧
      Command.mipSizes .l8 ≠ .pixDecode .a16b16g16r16f ∧ statusState t.status = stateDone) ∧
    (∃ t, exec .pixEncodeL8 (fed [7]) = .next t ∧ (Command.pixEncode .l8).readsInput = true ∧
      (∀ a, a < (fed [7]).inlen.toNat → ((fed [7]).ibuf.byte? a).isSome = true) ∧
      Command.pixEncode .l8 ≠ .pixDecode .a16b16g16r16f ∧ statusState t.status = stateDone) := by
  refine ⟨⟨_, exec_after _ _, by decide, by decide, by decide⟩, ⟨_, exec_after _ _, by decide, ?_, by decide, by decide⟩⟩
  show ∀ a, a < 1 → _
  decide

/-- `InvalidVariantAlwaysRaisesUnsupportedFormat`. -/
theorem witness_invalid : Instr.pixEncodeINVALID ∈ [Instr.catFourccINVALID, .catDxgiINVALID, .hdrBuildINVALID,
    .mipSizesINVALID, .mipTakeINVALID, .pixDecodeINVALID, .pixEncodeINVALID] := by decide

/-- `NonPositiveLayerCountActsAsOne`: 0, and the most negative count. -/
theorem witness_nonPositiveLayers :
    (given 4 4 0 1 0 []).layers.toInt ≤ 0 ∧ (given 4 4 0x80000000 1 0 []).layers.toInt ≤ 0 ∧
    ∃ t, exec .hdrBuildDXT1 (given 4 4 0x80000000 1 0 []) = .next t ∧ t.rlayers = 1 :=
  ⟨by decide, by decide, _, exec_after _ _, by decide⟩

/-- `CatFourccGivesTheFourCC` and `CatDxgiGivesTheDxgiCode`. -/
theorem witness_catForward : Variant.dxt1 ≠ .invalid := by decide

/-- `CatVfourccInvertsTheFourCC`: a code a variant carries, code 0, and a code none carries, which is the sentinel. -/
theorem witness_catVfourcc :
    State.reset.cfg.Wf ∧ (0x31545844 : Word) ≠ 0 ∧ (Config.defaults.catalog.codes .dxt1).fourCC = 0x31545844 ∧
    State.reset.code = 0 ∧ State.reset.cfg.extSentinel = 0x30315844 ∧
    ∀ v, v ≠ Variant.invalid → (Config.defaults.catalog.codes v).fourCC ≠ 0x30315844 := by
  refine ⟨by decide, by decide, by decide, rfl, rfl, ?_⟩
  intro v _
  cases v <;> decide

/-- `CatVdxgiInvertsTheDxgiCode`: a code a variant carries, code 0, and a code none carries. -/
theorem witness_catVdxgi :
    State.reset.cfg.Wf ∧ (98 : Word) ≠ 0 ∧ (Config.defaults.catalog.codes .bc7).dxgi = 98 ∧ State.reset.code = 0 ∧
    ∀ v, v ≠ Variant.invalid → (Config.defaults.catalog.codes v).dxgi ≠ 28 := by
  refine ⟨by decide, by decide, by decide, rfl, ?_⟩
  intro v _
  cases v <;> decide

/-- `HdrBuildWritesTheHeader`: the least operands without the extension, the greatest pitch with it, and an output of exactly
the capacity in both. -/
theorem witness_hdrBuild :
    (∃ s : State, BuildOperandsValid s ∧ BuildResolves s .dxt1 ∧ buildPitch s .dxt1 < 2 ^ 32 ∧ ¬ NeedsExt s .dxt1 ∧
      OutputFits s.cfg 128 ∧ s.cfg.obufCap = some 128) ∧
    (∃ s : State, BuildOperandsValid s ∧ BuildResolves s .a8r8g8b8 ∧ buildPitch s .a8r8g8b8 = 0xFFFFFFFC ∧
      NeedsExt s .a8r8g8b8 ∧ OutputFits s.cfg 148 ∧ s.cfg.obufCap = some 148) :=
  ⟨⟨capped none (some 128) (given 1 1 1 1 0 []), by decide⟩,
    ⟨capped none (some 148) (given 0x3FFFFFFF 1 2 1 0 []), by decide⟩⟩

/-- One pixel in `layers` layers, DXT1 with these codes. -/
def dxt1With (codes : Codes) (layers : Word) : State :=
  { given 1 1 layers 1 0 [] with cfg := withCatalog fun c => { c with dxt1 := codes } }

/-- `HdrBuildExceptionsInOrder`: each operand at its first bad value, codes that do not resolve (with and without a FourCC),
the least pitch beyond the field, and capacities one byte short. -/
theorem witness_hdrBuildExceptions :
    (¬ BuildOperandsValid (given 0 1 1 1 0 []) ∧ ¬ BuildOperandsValid (given 1 0x80000000 1 1 0 []) ∧
      ¬ BuildOperandsValid (given 1 1 1 0 0 [])) ∧
    (BuildOperandsValid (dxt1With ⟨1, 0⟩ 2) ∧ ¬ BuildResolves (dxt1With ⟨1, 0⟩ 2) .dxt1) ∧
    (BuildOperandsValid (dxt1With ⟨0, 0⟩ 1) ∧ ¬ BuildResolves (dxt1With ⟨0, 0⟩ 1) .dxt1) ∧
    (∃ s : State, BuildOperandsValid s ∧ BuildResolves s .a8r8g8b8 ∧ buildPitch s .a8r8g8b8 = 2 ^ 32) ∧
    (∃ s : State, BuildOperandsValid s ∧ BuildResolves s .dxt1 ∧ buildPitch s .dxt1 < 2 ^ 32 ∧ NeedsExt s .dxt1 ∧
      ¬ fits 148 s.cfg.obufCap ∧ s.cfg.obufCap = some 147) ∧
    (∃ s : State, BuildOperandsValid s ∧ BuildResolves s .dxt1 ∧ buildPitch s .dxt1 < 2 ^ 32 ∧ ¬ NeedsExt s .dxt1 ∧
      ¬ fits 128 s.cfg.obufCap ∧ s.cfg.obufCap = some 127) :=
  ⟨by decide, by decide, by decide, ⟨given 0x40000000 1 1 1 0 [], by decide⟩,
    ⟨capped none (some 147) (given 1 1 2 1 0 []), by decide⟩, ⟨capped none (some 127) (given 1 1 1 1 0 []), by decide⟩⟩

/-- `HdrParseReadsTheHeader`: headers of exactly 128 and exactly 148 bytes, under a capacity of exactly that. -/
theorem witness_hdrParse :
    (∃ s : State, s.cfg.FourCCsDistinct ∧ s.cfg.DxgisDistinct ∧ fits s.inlen.toNat s.cfg.ibufCap ∧ HeaderFixedFields s ∧ s.inlen.toNat = 128 ∧
      inputField s 84 ≠ s.cfg.extSentinel.toNat ∧ inputField s 84 ≠ 0 ∧
      (s.cfg.catalog.codes .dxt1).fourCC.toNat = inputField s 84) ∧
    (∃ s : State, s.cfg.FourCCsDistinct ∧ s.cfg.DxgisDistinct ∧ fits s.inlen.toNat s.cfg.ibufCap ∧ HeaderFixedFields s ∧ s.inlen.toNat = 148 ∧
      inputField s 84 = s.cfg.extSentinel.toNat ∧ inputField s 128 ≠ 0 ∧
      (s.cfg.catalog.codes .a8r8g8b8).dxgi.toNat = inputField s 128) :=
  ⟨⟨capped (some 128) none (fed header20), by decide⟩, ⟨capped (some 148) none (fed header23), by decide⟩⟩

/-- V20's bytes with another FourCC field. -/
def header20With (fourCC : List Byte) : List Byte := header20.take 84 ++ fourCC ++ header20.drop 88

/-- V23's bytes with another DXGI field. -/
def header23With (dxgi : List Byte) : List Byte := header23.take 128 ++ dxgi ++ header23.drop 132

/-- `HdrParseExceptionsInOrder`: a capacity one byte short, 127 bytes, a wrong magic, 147 bytes with the sentinel, and codes
0 and unknown on both paths. -/
theorem witness_hdrParseExceptions :
    (∃ s : State, ¬ fits s.inlen.toNat s.cfg.ibufCap ∧ s.inlen.toNat = 128 ∧ s.cfg.ibufCap = some 127) ∧
    (∃ s : State, fits s.inlen.toNat s.cfg.ibufCap ∧ s.inlen.toNat = 127) ∧
    (∃ s : State, fits s.inlen.toNat s.cfg.ibufCap ∧ s.inlen.toNat = 128 ∧ ¬ HeaderFixedFields s) ∧
    (∃ s : State, fits s.inlen.toNat s.cfg.ibufCap ∧ s.inlen.toNat = 147 ∧ HeaderFixedFields s ∧
      inputField s 84 = s.cfg.extSentinel.toNat) ∧
    (∃ s : State, fits s.inlen.toNat s.cfg.ibufCap ∧ s.inlen.toNat = 148 ∧ HeaderFixedFields s ∧
      inputField s 84 = s.cfg.extSentinel.toNat ∧ inputField s 128 = 0) ∧
    (∃ s : State, fits s.inlen.toNat s.cfg.ibufCap ∧ s.inlen.toNat = 148 ∧ HeaderFixedFields s ∧
      inputField s 84 = s.cfg.extSentinel.toNat ∧
      (Variant.real.all fun v => (s.cfg.catalog.codes v).dxgi.toNat ≠ inputField s 128) = true) ∧
    (∃ s : State, fits s.inlen.toNat s.cfg.ibufCap ∧ s.inlen.toNat = 128 ∧ HeaderFixedFields s ∧
      inputField s 84 ≠ s.cfg.extSentinel.toNat ∧ inputField s 84 = 0) ∧
    (∃ s : State, fits s.inlen.toNat s.cfg.ibufCap ∧ s.inlen.toNat = 128 ∧ HeaderFixedFields s ∧
      inputField s 84 ≠ s.cfg.extSentinel.toNat ∧
      (Variant.real.all fun v => (s.cfg.catalog.codes v).fourCC.toNat ≠ inputField s 84) = true) :=
  ⟨⟨capped (some 127) none (fed header20), by decide⟩, ⟨fed (header20.take 127), by decide⟩,
    ⟨fed (0x45 :: header20.drop 1), by decide⟩, ⟨fed (header23.take 147), by decide⟩,
    ⟨fed (header23With [0, 0, 0, 0]), by decide⟩, ⟨fed (header23With [28, 0, 0, 0]), by decide⟩,
    ⟨fed (header20With [0, 0, 0, 0]), by decide⟩, ⟨fed (header20With [1, 0, 0, 0]), by decide⟩⟩

/-- `HdrParseIgnoresTheFieldsItDoesNotRead`: inputs that differ in the pitch field. -/
theorem witness_hdrParseIgnores : ∃ s₁ s₂ t₁ t₂ : State, s₁ ≠ s₂ ∧ s₁.cfg = s₂.cfg ∧ s₁.inlen = s₂.inlen ∧
    s₁.draws = s₂.draws ∧
    (∀ o ∈ [0, 4, 12, 16, 28, 76, 84, 128, 140], ∀ k < 4, s₁.ibufByte (o + k) = s₂.ibufByte (o + k)) ∧
    exec .hdrParse s₁ = .next t₁ ∧ exec .hdrParse s₂ = .next t₂ := by
  refine ⟨fed header23, fed (header23.take 20 ++ [0xFF] ++ header23.drop 21), _, _, by decide, rfl, by decide, rfl, by decide,
    exec_after _ _, exec_after _ _⟩

/-- What V23's build leaves. -/
def built : State := after .hdrBuildA8R8G8B8 (given 64 32 2 1 0 [])

/-- `BuildThenParseRecoversTheOperands`: the output of V23's build fed back. -/
theorem witness_roundTrip : ∃ s t p : State, s.cfg.FourCCsDistinct ∧ s.cfg.SentinelIsNoFourCC ∧ s.cfg.DxgisDistinct ∧
    s.cfg.EveryVariantResolves ∧ Variant.a8r8g8b8 ≠ .invalid ∧
    exec (Command.hdrBuild .a8r8g8b8).instr s = .next t ∧ statusState t.status = stateDone ∧ p.cfg = s.cfg ∧
    p.inlen = t.outlen ∧ (∀ a, a < t.outlen.toNat → p.ibuf.byte? a = t.obuf.byte? a) ∧
    fits p.inlen.toNat p.cfg.ibufCap :=
  ⟨given 64 32 2 1 0 [], built, { State.reset with inlen := built.outlen, ibuf := built.obuf }, by decide, by decide, by decide,
    by decide, by decide,
    exec_after _ _, by decide, rfl, rfl, fun _ _ => rfl, by decide⟩

/-- `LevelSequence` and `LevelSizesExactnessAndOrder`: the smallest and the widest texture, a 4-bit block format with an
even and an odd pair of dimensions, and a level past the last. -/
theorem witness_levels : 1 ≤ 1 ∧ Variant.bc4 ≠ .invalid ∧
    ¬ (max (minTile .bc4) (max 1 (5 / 2 ^ 0)) % 2 = 1 ∧ max (minTile .bc4) (max 1 (6 / 2 ^ 0)) % 2 = 1) ∧
    (max (minTile .bc4) (max 1 (5 / 2 ^ 0)) % 2 = 1 ∧ max (minTile .bc4) (max 1 (7 / 2 ^ 0)) % 2 = 1) ∧
    (0x7FFFFFFF : Nat) < 2 ^ 31 ∧ depth 0x7FFFFFFF 1 = 31 ∧ depth 1 1 ≤ 40 := by decide

/-- `MipSizesWritesEveryLevel`: the smallest texture with an output of exactly the capacity, the widest, and a first size of
2^31. -/
theorem witness_mipSizes :
    (∃ s : State, 0 < s.width.toInt ∧ 0 < s.height.toInt ∧ levelBytes .l8 1 1 0 < 2 ^ 32 ∧
      s.width.toInt.toNat = 1 ∧ s.height.toInt.toNat = 1 ∧ OutputFits s.cfg (4 * depth 1 1) ∧ s.cfg.obufCap = some 4) ∧
    (∃ s : State, 0 < s.width.toInt ∧ 0 < s.height.toInt ∧ s.width.toInt.toNat = 0x7FFFFFFF ∧ s.height.toInt.toNat = 1 ∧
      levelBytes .l8 0x7FFFFFFF 1 0 < 2 ^ 32 ∧ OutputFits s.cfg (4 * depth 0x7FFFFFFF 1)) ∧
    (∃ s : State, s.width.toInt.toNat = 65536 ∧ s.height.toInt.toNat = 65536 ∧ levelBytes .dxt1 65536 65536 0 = 2 ^ 31 ∧
      OutputFits s.cfg (4 * depth 65536 65536)) :=
  ⟨⟨capped none (some 4) (given 1 1 0 0 0 []), by decide⟩, ⟨given 0x7FFFFFFF 1 0 0 0 [], by decide⟩,
    ⟨given 65536 65536 0 0 0 [], by decide⟩⟩

/-- `MipTakeWritesTheRequestedLevels`: one level, and all of them with an output of exactly the capacity. -/
theorem witness_mipTake :
    (∃ s : State, s.width.toInt.toNat = 16 ∧ s.height.toInt.toNat = 16 ∧ s.mips.toInt = 1 ∧ 1 ≤ depth 16 16 ∧
      levelBytes .dxt1 16 16 0 < 2 ^ 32 ∧ OutputFits s.cfg (4 * 1)) ∧
    (∃ s : State, s.width.toInt.toNat = 16 ∧ s.height.toInt.toNat = 16 ∧ s.mips.toInt.toNat = depth 16 16 ∧
      levelBytes .dxt1 16 16 0 < 2 ^ 32 ∧ OutputFits s.cfg (4 * depth 16 16) ∧ s.cfg.obufCap = some 20) :=
  ⟨⟨given 16 16 0 1 0 [], by decide⟩, ⟨capped none (some 20) (given 16 16 0 5 0 []), by decide⟩⟩

/-- `MipExceptionsInOrder`: the first bad value of each operand, one level too many, the least first size beyond the field,
and capacities one byte short. -/
theorem witness_mipExceptions :
    (¬ 0 < (given 0 1 0 1 0 []).width.toInt ∧ ¬ 0 < (given 1 0xFFFFFFFF 0 1 0 []).height.toInt ∧
      (given 1 1 0 0 0 []).mips.toInt < 1) ∧
    (∃ s : State, s.width.toInt.toNat = 65536 ∧ s.height.toInt.toNat = 65536 ∧ s.mips.toInt.toNat = depth 65536 65536 ∧
      levelBytes .dxt3 65536 65536 0 = 2 ^ 32) ∧
    (∃ s : State, s.width.toInt.toNat = 16 ∧ s.height.toInt.toNat = 16 ∧ s.mips.toInt.toNat = depth 16 16 + 1) ∧
    (∃ s : State, s.width.toInt.toNat = 16 ∧ s.height.toInt.toNat = 16 ∧ s.mips.toInt.toNat = depth 16 16 ∧
      levelBytes .dxt1 16 16 0 < 2 ^ 32 ∧ ¬ fits (4 * depth 16 16) s.cfg.obufCap ∧ s.cfg.obufCap = some 19) :=
  ⟨by decide, ⟨given 65536 65536 0 17 0 [], by decide⟩, ⟨given 16 16 0 6 0 [], by decide⟩,
    ⟨capped none (some 19) (given 16 16 0 5 0 []), by decide⟩⟩

/-- A decode that meets the conditions every decode needs. -/
theorem ready_of {s : State} (h : 0 < s.width.toInt ∧ 0 < s.height.toInt ∧ fits s.inlen.toNat s.cfg.ibufCap ∧
    s.tlayer.toInt < s.layerCount) : DecodeReady s :=
  ⟨h.1, h.2.1, h.2.2.1, h.2.2.2⟩

/-- The statements about the six transforming variants: one pixel whole, and the last of two layers with an input and an
output of exactly the capacity, at each number of bytes a pixel. -/
theorem witness_decode :
    (∃ s : State, DecodeReady s ∧ s.inlen.toNat = 2 * pixelCount s ∧ s.tlayer.toInt < 0 ∧
      OutputFits s.cfg (sliceLength (4 * pixelCount s) s)) ∧
    (∀ bpp ∈ [1, 2, 4, 8], ∃ s : State, DecodeReady s ∧ s.inlen.toNat = bpp * pixelCount s ∧
      s.cfg.ibufCap = some (2 * bpp) ∧ s.tlayer.toInt = s.layerCount - 1 ∧
      OutputFits s.cfg (sliceLength (4 * pixelCount s) s) ∧ s.cfg.obufCap = some 4) := by
  refine ⟨⟨given 1 1 1 0 0xFFFFFFFF [1, 2], ready_of (by decide), by decide⟩, ?_⟩
  intro bpp h
  refine ⟨capped (some (2 * bpp)) (some 4) (given 1 1 2 0 1 (List.replicate (2 * bpp) 9)), ?_⟩
  fin_cases h <;> exact ⟨ready_of (by decide), by decide⟩

/-- `DecodeA16B16G16R16FConvertsEveryChannel` and `HalfToByteIsNearestAndMonotone`: half-floats at the ends of each clause:
the greatest that is not negative, the least negative, 1.0, the greatest below 1.0, the least normal, a zero, a NaN apart. -/
theorem witness_half :
    ((0x7C00 : Nat) / 1024 % 32 = 31 ∧ 0x7C00 % 1024 = 0) ∧ 32768 ≤ (0x8000 : Nat) ∧
    (0x3C00 < 32768 ∧ 15 ≤ (0x3C00 : Nat) / 1024 % 32) ∧ (0x3BFF : Nat) / 1024 % 32 < 15 ∧
    (0x0400 : Nat) / 1024 % 32 = 1 ∧ (0 : Nat) / 1024 % 32 = 0 ∧
    halfSign 0x3BFF = false ∧ halfExp 0x3BFF < 15 ∧ halfSign 0 = false ∧ (0x7BFF : Half).toNat ≤ (0x7C00 : Half).toNat ∧
    (0x7C00 : Half).toNat ≤ 0x7C00 := by decide

/-- `DecodePassThroughReturnsTheInput`: an empty input, and a middle layer of an input no number of layers divides. -/
theorem witness_passThrough :
    (Variant.x8r8g8b8 ∈ passedThrough ∧ ∃ s : State, DecodeReady s ∧ s.inlen = 0 ∧
      OutputFits s.cfg (sliceLength s.inlen.toNat s)) ∧
    (Variant.d16 ∈ passedThrough ∧ ∃ s : State, DecodeReady s ∧ s.inlen = 7 ∧ s.layerCount = 3 ∧
      OutputFits s.cfg (sliceLength s.inlen.toNat s) ∧ s.cfg.obufCap = some 2) :=
  ⟨⟨by decide, given 1 1 1 0 0xFFFFFFFF [], ready_of (by decide), by decide⟩,
    ⟨by decide, capped none (some 2) (given 9 9 3 0 1 [1, 2, 3, 4, 5, 6, 7]), ready_of (by decide), by decide⟩⟩

/-- `DecodeBlockReturnsTheCollaboratorsAnswer`: an answer of the right length, a failure, a short answer, a target layer just
out of range, and a capacity one byte short. -/
theorem witness_block : Variant.dxt1 ∈ blockCompressed ∧
    (∃ s : State, DecodeReady s ∧ blockDecompress s.cfg (inputBytes s) 4 8 .dxt1 = some (List.replicate (4 * 8 * 4) 7) ∧
      s.width.toInt.toNat = 4 ∧ s.height.toInt.toNat * s.layerCount = 8 ∧ OutputFits s.cfg (sliceLength 128 s)) ∧
    (∃ s : State, DecodeReady s ∧ blockDecompress s.cfg (inputBytes s) 4 8 .dxt1 = none) ∧
    (∃ s : State, DecodeReady s ∧ blockDecompress s.cfg (inputBytes s) 4 8 .dxt1 = some (List.replicate 127 7)) ∧
    (∃ s : State, 0 < s.width.toInt ∧ 0 < s.height.toInt ∧ fits s.inlen.toNat s.cfg.ibufCap ∧
      blockDecompress s.cfg (inputBytes s) 4 8 .dxt1 = some (List.replicate (4 * 8 * 4) 7) ∧
      (s.layerCount : Int) = s.tlayer.toInt) ∧
    (∃ s : State, DecodeReady s ∧ blockDecompress s.cfg (inputBytes s) 4 8 .dxt1 = some (List.replicate (4 * 8 * 4) 7) ∧
      ¬ fits (sliceLength 128 s) s.cfg.obufCap ∧ s.cfg.obufCap = some 63) :=
  ⟨by decide, ⟨blockState (some (List.replicate 128 7)) 1, ready_of (by decide), by decide⟩,
    ⟨blockState none 1, ready_of (by decide), by decide⟩,
    ⟨blockState (some (List.replicate 127 7)) 1, ready_of (by decide), by decide⟩,
    ⟨blockState (some (List.replicate 128 7)) 2, by decide⟩,
    ⟨capped none (some 63) (blockState (some (List.replicate 128 7)) 1), ready_of (by decide), by decide⟩⟩

/-- `DecodeExceptionsInOrder`: each clause at the first value that raises. -/
theorem witness_decodeExceptions :
    (¬ 0 < (given 0 1 1 0 0 []).width.toInt ∧ ¬ 0 < (given 1 0xFFFFFFFF 1 0 0 []).height.toInt) ∧
    (∃ s : State, 0 < s.width.toInt ∧ 0 < s.height.toInt ∧ ¬ fits s.inlen.toNat s.cfg.ibufCap ∧ s.inlen = 2 ∧
      s.cfg.ibufCap = some 1) ∧
    (∀ n ∈ [1, 3], ∃ s : State, 0 < s.width.toInt ∧ 0 < s.height.toInt ∧ fits s.inlen.toNat s.cfg.ibufCap ∧
      Variant.a1r5g5b5 ∈ transformed ∧ s.inlen.toNat = n ∧ pixelCount s * bytesPerPixel .a1r5g5b5 = 2) ∧
    (∃ s : State, 0 < s.width.toInt ∧ 0 < s.height.toInt ∧ fits s.inlen.toNat s.cfg.ibufCap ∧
      Variant.l8 ∉ blockCompressed ∧ s.inlen.toNat = pixelCount s * bytesPerPixel .l8 ∧
      (s.layerCount : Int) = s.tlayer.toInt) ∧
    (∃ s : State, DecodeReady s ∧ s.inlen.toNat = pixelCount s * bytesPerPixel .l8 ∧
      ¬ fits (sliceLength (4 * pixelCount s) s) s.cfg.obufCap ∧ s.cfg.obufCap = some 3) ∧
    (∃ s : State, DecodeReady s ∧ Variant.d16 ∉ blockCompressed ∧ Variant.d16 ∉ transformed ∧
      ¬ fits (sliceLength s.inlen.toNat s) s.cfg.obufCap ∧ s.cfg.obufCap = some 0) := by
  refine ⟨by decide, ⟨capped (some 1) none (given 1 1 1 0 0 [1, 2]), by decide⟩, ?_, ⟨given 1 1 2 0 2 [1, 2], by decide⟩,
    ⟨capped none (some 3) (given 1 1 2 0 1 [1, 2]), ready_of (by decide), by decide⟩,
    ⟨capped none (some 0) (given 1 1 2 0 1 [1, 2]), ready_of (by decide), by decide⟩⟩
  intro n h
  refine ⟨given 1 1 1 0 0 (List.replicate n 1), ?_⟩
  fin_cases h <;> decide

/-- The operands of the least decode whose output is 2^32 bytes. -/
def hugeDecode : State := { State.reset with width := 32768, height := 32768, layers := 1, inlen := 0x40000000 }

/-- The same dimensions, an empty input, and a collaborator that answers that many bytes for DXT1. -/
def hugeBlock : State :=
  { hugeDecode with
    inlen := 0
    cfg := { Config.defaults with
      blockAnswers := [⟨[], 32768, 32768, .dxt1, some (List.replicate (2 ^ 32) 7)⟩] } }

/-- `DecodeOutputBeyondOutlenOverflows`: the least output that does not fit, of a transforming and of a block-compressed
decode, and the longest input of a pass-through one. -/
theorem witness_decodeOverflow :
    (Variant.l8 ∈ transformed ∧ DecodeReady hugeDecode ∧
      hugeDecode.inlen.toNat = pixelCount hugeDecode * bytesPerPixel .l8 ∧
      fits (sliceLength (4 * pixelCount hugeDecode) hugeDecode) hugeDecode.cfg.obufCap ∧
      sliceLength (4 * pixelCount hugeDecode) hugeDecode = 2 ^ 32) ∧
    (Variant.dxt1 ∈ blockCompressed ∧ DecodeReady hugeBlock ∧
      ∃ r w rows, w = hugeBlock.width.toInt.toNat ∧ rows = hugeBlock.height.toInt.toNat * hugeBlock.layerCount ∧
        blockDecompress hugeBlock.cfg (inputBytes hugeBlock) w rows .dxt1 = some r ∧ r.length = w * rows * 4 ∧
        fits (sliceLength r.length hugeBlock) hugeBlock.cfg.obufCap ∧ sliceLength r.length hugeBlock = 2 ^ 32) ∧
    (Variant.d16 ∈ passedThrough ∧ DecodeReady { hugeDecode with inlen := 0xFFFFFFFF, tlayer := 0xFFFFFFFF }) := by
  refine ⟨⟨by decide, ready_of (by decide), by decide, by decide, by decide⟩, ⟨by decide, ready_of (by decide),
    List.replicate (2 ^ 32) 7, 32768, 32768, by decide, by decide, rfl, ?_, ?_, ?_⟩, by decide, ready_of (by decide)⟩
  all_goals
    rw [List.length_replicate]
    decide

/-- `OutputPixelDependsOnItsInputPixelOnly`: two inputs that agree on their last pixel only, as one row and as two layers. -/
theorem witness_pixelLocality :
    2 * 1 * 1 = 1 * 1 * 2 ∧ ([1, 2, 3, 4] : List Byte).length = 2 * 1 * 1 * bytesPerPixel .a1r5g5b5 ∧ 1 < 2 * 1 * 1 ∧
    (∀ k, k < bytesPerPixel .a1r5g5b5 →
      ([1, 2, 3, 4] : List Byte)[bytesPerPixel .a1r5g5b5 * 1 + k]? =
        ([9, 8, 3, 4] : List Byte)[bytesPerPixel .a1r5g5b5 * 1 + k]?) ∧
    (stage1 Config.defaults 0 [1, 2, 3, 4] 2 1 1 .a1r5g5b5).isOk = true ∧
    (stage1 Config.defaults 0 [9, 8, 3, 4] 1 1 2 .a1r5g5b5).isOk = true ∧ Variant.x8r8g8b8 ∈ passedThrough := by decide

/-- `SwapIsPositionalAndSelfInverse`. -/
theorem witness_swap : ([1, 2, 3, 4, 5, 6, 7, 8] : List Byte).length % 4 = 0 ∧ 1 < 8 / 4 := by decide

/-- `EncodeCopiesOrSwaps` and `EncodeExceptionsInOrder`: a copy, a swap with an input and an output of exactly the capacity, and
each exception at its first value. -/
theorem witness_encode :
    (∃ s : State, fits s.inlen.toNat s.cfg.ibufCap ∧ OutputFits s.cfg s.inlen.toNat ∧ s.layerCount = 1 ∧ s.inlen = 3) ∧
    (∃ s : State, fits s.inlen.toNat s.cfg.ibufCap ∧ OutputFits s.cfg s.inlen.toNat ∧ 1 < s.layerCount ∧ s.inlen = 4 ∧
      s.cfg.ibufCap = some 4 ∧ s.cfg.obufCap = some 4) ∧
    (∃ s : State, ¬ fits s.inlen.toNat s.cfg.ibufCap ∧ s.inlen = 4 ∧ s.cfg.ibufCap = some 3) ∧
    (∃ s : State, fits s.inlen.toNat s.cfg.ibufCap ∧ 1 < s.layerCount ∧ s.inlen = 3) ∧
    (∃ s : State, fits s.inlen.toNat s.cfg.ibufCap ∧ s.inlen.toNat % 4 = 0 ∧ ¬ fits s.inlen.toNat s.cfg.obufCap ∧
      s.inlen = 4 ∧ s.cfg.obufCap = some 3) :=
  ⟨⟨given 0 0 0 0 0 [1, 2, 3], by decide⟩, ⟨capped (some 4) (some 4) (given 0 0 2 0 0 [1, 2, 3, 4]), by decide⟩,
    ⟨capped (some 3) none (given 0 0 2 0 0 [1, 2, 3, 4]), by decide⟩, ⟨given 0 0 2 0 0 [1, 2, 3], by decide⟩,
    ⟨capped none (some 3) (given 0 0 2 0 0 [1, 2, 3, 4]), by decide⟩⟩

/-- What an encode of two layers leaves. -/
def encoded : State := after .pixEncodeA8R8G8B8 (given 0 0 2 0 0 [1, 2, 3, 4, 5, 6, 7, 8])

/-- `EncodeThenDecodeA8R8G8B8IsTheIdentity`. -/
theorem witness_encodeDecode : ∃ s t p : State, exec .pixEncodeA8R8G8B8 s = .next t ∧ statusState t.status = stateDone ∧
    1 < s.layerCount ∧ DecodeReady p ∧ p.tlayer.toInt < 0 ∧ p.layers = s.layers ∧ p.inlen = t.outlen ∧
    s.inlen.toNat = 4 * pixelCount p ∧ OutputFits p.cfg (4 * pixelCount p) ∧
    (∀ a, a < t.outlen.toNat → p.ibuf.byte? a = t.obuf.byte? a) :=
  ⟨given 0 0 2 0 0 [1, 2, 3, 4, 5, 6, 7, 8], encoded,
    { State.reset with width := 1, height := 1, layers := 2, inlen := encoded.outlen, ibuf := encoded.obuf },
    exec_after _ _, by decide, by decide, ready_of (by decide), by decide, rfl, rfl, by decide, by decide, fun _ _ => rfl⟩

/-- `PseudoInstructionsRunTheirCommand`: an input of exactly the capacity. -/
theorem witness_pseudo : ∃ s : State, s.pending = [] ∧ s.cfg.Wf ∧ fits ([1, 2] : List Byte).length s.cfg.ibufCap ∧
    s.cfg.ibufCap = some 2 ∧ ([1, 2] : List Byte).length < 2 ^ 32 :=
  ⟨capped (some 2) none State.reset, by decide⟩

end Sys2Proof.Tests
end

section
/-! SUPPORT. What stage 1 of a decode answers for a transforming and for a block-compressed variant, a decode whose stage 1
answers some bytes, and the decodes whose output does not fit `OUTLEN` (00_scope.md R8, 43_pixel_decode.md R110, R113). -/

namespace Sys2Proof.Machine

/-- The block-compressed variants have no length rule (43_pixel_decode.md R111). -/
theorem hasLengthRule_of_mem_blockCompressed {v : Variant} (hv : v ∈ blockCompressed) : hasLengthRule v = false := by
  fin_cases hv <;> rfl

/-- A transforming stage 1 succeeds on an input of the right length and answers four bytes a pixel. -/
theorem stage1_of_mem_transformed {v : Variant} (hv : v ∈ transformed) (cfg : Config) (draw w h layers : Nat) {n : Nat}
    {input : List Byte} (hn : input.length = n * bytesPerPixel v) :
    ∃ full, stage1 cfg draw input w h layers v = .ok full ∧ full.length = 4 * n := by
  cases v with
  | a1r5g5b5 | a4r4g4b4 =>
    have h2 : input.length = n * 2 := hn
    refine ⟨_, rfl, ?_⟩
    rw [length_flatMap_four _ fun _ => rfl, length_halves]
    omega
  | l8 | a8 =>
    have h1 : input.length = n * 1 := hn
    refine ⟨_, rfl, ?_⟩
    rw [length_flatMap_four _ fun _ => rfl, h1, Nat.mul_one]
  | a16b16g16r16f =>
    have h8 : input.length = n * 8 := hn
    refine ⟨_, rfl, ?_⟩
    rw [unpackHalves, List.length_mapIdx, length_halves]
    omega
  | a8r8g8b8 =>
    have h4 : input.length = n * 4 := hn
    refine ⟨_, rfl, ?_⟩
    rw [length_swap02]
    omega
  | _ => exact absurd hv (by decide)

/-- Stage 1 of a block-compressed variant asks the collaborator (43_pixel_decode.md R113). -/
theorem stage1_of_mem_blockCompressed {v : Variant} (hv : v ∈ blockCompressed) (cfg : Config) (draw w h layers : Nat)
    (input : List Byte) : stage1 cfg draw input w h layers v = delegate cfg input w h layers v := by
  fin_cases hv <;> rfl

/-- The collaborator's answer is taken when it has four bytes a pixel. -/
theorem delegate_of_answer {cfg : Config} {input r : List Byte} {w h layers : Nat} {v : Variant}
    (hr : blockDecompress cfg input w (h * layers) v = some r) (hl : r.length = w * (h * layers) * 4) :
    delegate cfg input w h layers v = .ok r := by
  simp only [delegate, hr, hl, ne_eq, not_true_eq_false, if_false]

/-- A decode whose stage 1 answers `full` ends with what stage 2 selects of it (43_pixel_decode.md R110, R112). -/
theorem decode_of_stage1 {v : Variant} {s : State} {full : List Byte} (hv : v ≠ .invalid) (hs : DecodeReady s)
    (hlen : hasLengthRule v = true → s.inlen.toNat = pixelCount s * bytesPerPixel v)
    (h1 : stage1 s.cfg s.draws (inputBytes s) s.width.toInt.toNat s.height.toInt.toNat s.layerCount v = .ok full) :
    Command.run (.pixDecode v) s = s.complete (layerSlice full s.layerCount s.tlayer.toInt) := by
  rw [decode_past_checks hv hs.width_pos hs.height_pos hs.input_fits hlen, s.widthOp_eq, s.heightOp_eq, h1,
    s.targetLayer_eq]
  change (stage2 full s.layerCount s.tlayer.toInt >>= fun out => s.complete out) = _
  rw [stage2_of_lt full hs.layer_in_range]
  rfl

/-- A decode whose stage 1 answers `full` overflows when what stage 2 selects is within the capacity but does not fit
`OUTLEN` (log entry 12). -/
theorem decode_raises_fieldOverflow {v : Variant} {s : State} {full : List Byte} (hv : v ≠ .invalid) (hs : DecodeReady s)
    (hlen : hasLengthRule v = true → s.inlen.toNat = pixelCount s * bytesPerPixel v)
    (h1 : stage1 s.cfg s.draws (inputBytes s) s.width.toInt.toNat s.height.toInt.toNat s.layerCount v = .ok full)
    (hf : fits (sliceLength full.length s) s.cfg.obufCap) (hb : 2 ^ 32 ≤ sliceLength full.length s) :
    Raises (Command.pixDecode v).instr s .fieldOverflow := by
  rw [← length_layerSlice full hs.layer_in_range] at hf hb
  exact raises_of_run ((decode_of_stage1 hv hs hlen h1).trans (State.complete_of_overflow hf hb))

/-- The layer extraction never lengthens. -/
theorem sliceLength_le (n : Nat) (s : State) : sliceLength n s ≤ n := by
  unfold sliceLength
  split_ifs
  · exact le_rfl
  · exact Nat.div_le_self _ _

/-- Settles O48: the bytes stage 1 answers are four a pixel, and `complete` tests the length of what stage 2 selects of
them; a pass-through output is no longer than `INLEN`, a 32-bit register. -/
theorem decodeOutputBeyondOutlenOverflows : Obligations.DecodeOutputBeyondOutlenOverflows := by
  intro v s hs
  refine ⟨fun hv hlen hf hb => ?_, fun hv r w rows hw hrows hr hl hf hb => ?_, fun _ => ?_⟩
  · obtain ⟨full, h1, hfull⟩ := stage1_of_mem_transformed hv s.cfg s.draws s.width.toInt.toNat s.height.toInt.toNat
      s.layerCount ((length_inputBytes s).trans hlen)
    rw [← hfull] at hf hb
    exact decode_raises_fieldOverflow (ne_of_mem_of_not_mem hv (by decide)) hs (fun _ => hlen) h1 hf hb
  · subst hw hrows
    have h1 := (stage1_of_mem_blockCompressed hv s.cfg s.draws _ _ _ _).trans (delegate_of_answer hr hl)
    exact decode_raises_fieldOverflow (ne_of_mem_of_not_mem hv (by decide)) hs
      (by simp [hasLengthRule_of_mem_blockCompressed hv]) h1 hf hb
  · exact (sliceLength_le _ s).trans_lt s.inlen.isLt

end Sys2Proof.Machine
end

section
/-! SUPPORT. The machine invariant along a step, and what a step can do to `STATUS` and to the configuration
(10_state.md R13, R14, R17, R19 to R22; 60_exceptions.md R150). -/

namespace Sys2Proof.Machine

/-- A byte written at an index that exists keeps the buffer within its capacity (10_state.md R19). -/
theorem Memory.put_within {m : Memory} {cap : Option Nat} {a : Nat} (b : Byte) (hm : m.Within cap)
    (ha : exceeds (a + 1) cap = false) : (m.put a b).Within cap := by
  intro c hc
  rcases Memory.mem_put hc with rfl | hc
  · exact ha
  · exact hm c hc

/-- The invariant speaks of `STATUS`, `OUTLEN`, the buffers and the configuration only. -/
theorem State.Inv.of_same {s t : State} (hs : s.Inv) (hstatus : t.status = s.status) (houtlen : t.outlen = s.outlen)
    (hibuf : t.ibuf = s.ibuf) (hobuf : t.obuf = s.obuf) (hcfg : t.cfg = s.cfg) : t.Inv where
  status_legal := hstatus ▸ hs.status_legal
  ibuf_wf := hibuf ▸ hs.ibuf_wf
  obuf_wf := hobuf ▸ hs.obuf_wf
  ibuf_within := by rw [hibuf, hcfg]; exact hs.ibuf_within
  obuf_within := by rw [hobuf, hcfg]; exact hs.obuf_within
  obuf_valid := by rw [hobuf, houtlen]; exact hs.obuf_valid
  no_output := by rw [hstatus, houtlen]; exact hs.no_output

/-- Taking a command off the queue into `CMD` keeps the invariant. -/
theorem State.Inv.take_command {s : State} (hs : s.Inv) (rest : List HostAction) (w : Word) :
    ({ s with pending := rest, cmd := w } : State).Inv :=
  hs.of_same rfl rfl rfl rfl rfl

/-- A success keeps the invariant: the valid output bytes are those of `out`, as many as `OUTLEN` says. -/
theorem State.Inv.of_finishedWith {s t : State} {out : List Byte} {ws : List Reg} (hs : s.Inv)
    (hf : FinishedWith s t out ws) : t.Inv where
  status_legal := hf.status ▸ statusAfterDone_legal _
  ibuf_wf := hf.ibuf ▸ hs.ibuf_wf
  obuf_wf := hf.obuf ▸ Memory.ofBytes_wf 0 out
  ibuf_within := by rw [hf.ibuf, hf.frame.cfg]; exact hs.ibuf_within
  obuf_within := by rw [hf.obuf, hf.frame.cfg]; exact Memory.ofBytes_within hf.capacity
  obuf_valid a := by simp [hf.succeeds.obuf_bytes, hf.succeeds.outlen_length]
  no_output h := absurd hf.succeeds.state_done h

/-- Where nothing is valid in `OBUF` and `OUTLEN` is 0, a legal status word and a sound `IBUF` make the invariant. -/
theorem State.inv_of_no_output {s : State} (hstatus : StatusLegal s.status) (hwf : s.ibuf.wf)
    (hin : s.ibuf.Within s.cfg.ibufCap) (houtlen : s.outlen = 0) (hobuf : s.obuf = []) : s.Inv where
  status_legal := hstatus
  ibuf_wf := hwf
  obuf_wf := hobuf ▸ List.Pairwise.nil
  ibuf_within := hin
  obuf_within := by rw [hobuf]; exact fun _ hc => absurd hc List.not_mem_nil
  obuf_valid a := by simp [hobuf, houtlen]
  no_output _ := houtlen

/-- An exception keeps the invariant. -/
theorem State.Inv.raise {s : State} (hs : s.Inv) (e : Exc) : (s.raise e).Inv :=
  State.inv_of_no_output (statusAfterError_legal e) hs.ibuf_wf hs.ibuf_within rfl rfl

/-- The all-zero status word of the time before the first operation is legal (10_state.md R22). -/
theorem statusLegal_zero : StatusLegal 0 where
  reserved_zero := by decide
  state_produced := by decide
  err_produced := by decide
  err_iff_error := by decide
  error_sticky := by decide
  idle_zero _ := rfl

/-- Reset makes the invariant, whatever held before. -/
theorem State.applyReset_inv (s : State) : s.applyReset.Inv :=
  State.inv_of_no_output statusLegal_zero List.Pairwise.nil (fun _ hc => absurd hc List.not_mem_nil) rfl rfl

/-- An input byte written at an index that exists keeps the invariant. -/
theorem State.Inv.put_ibuf {s : State} (hs : s.Inv) {a : Nat} (b : Byte)
    (ha : exceeds (a + 1) s.cfg.ibufCap = false) : ({ s with ibuf := s.ibuf.put a b } : State).Inv :=
  { hs with
    ibuf_wf := Memory.put_wf a b hs.ibuf_wf
    ibuf_within := Memory.put_within b hs.ibuf_within ha }

/-- Settles O12, by the cases of a step: a success, an exception and a reset make `STATUS`, `OUTLEN` and `OBUF` anew, an
input write keeps `IBUF` sound, and no other step touches what the invariant speaks of. -/
theorem everyStepKeepsTheInvariant : Obligations.EveryStepKeepsTheInvariant := by
  intro s t hs h
  rcases step_cases h with ⟨-, rfl⟩ | ⟨w, rest, i, out, -, -, hf⟩ | ⟨w, rest, e, -, rfl⟩ | ⟨r, w, rest, -, -, rfl⟩ |
    ⟨a, b, rest, -, ha, rfl⟩ | ⟨a, rest, v, n, -, -, rfl⟩ | ⟨rest, -, rfl⟩
  · exact hs
  · exact (hs.take_command rest w).of_finishedWith hf
  · exact (hs.take_command rest w).raise e
  · exact hs.of_same (by simp) (by simp) (by simp) (by simp) (by simp)
  · exact (hs.put_ibuf b ha).of_same rfl rfl rfl rfl rfl
  · exact hs.of_same rfl rfl rfl rfl rfl
  · exact State.applyReset_inv _

/-- Everything a step can do to `STATUS`: leave it, end a success, end an exception, or reset it. -/
theorem step_status {s t : State} (h : step s = .next t) :
    t.status = s.status ∨ t.status = statusAfterDone s.status ∨ (∃ e, t.status = statusAfterError e) ∨
    (t.status = 0 ∧ ∃ rest, s.pending = .reset :: rest) := by
  rcases step_cases h with ⟨-, rfl⟩ | ⟨w, rest, i, out, -, -, hf⟩ | ⟨w, rest, e, -, rfl⟩ | ⟨r, w, rest, -, -, rfl⟩ |
    ⟨a, b, rest, -, -, rfl⟩ | ⟨a, rest, v, n, -, -, rfl⟩ | ⟨rest, hp, rfl⟩
  · exact .inl rfl
  · exact .inr (.inl hf.status)
  · exact .inr (.inr (.inl ⟨e, rfl⟩))
  · exact .inl (by simp)
  · exact .inl rfl
  · exact .inl rfl
  · exact .inr (.inr (.inr ⟨rfl, rest, hp⟩))

/-- Settles O13, by what a step can do to `STATUS`: a success keeps `STICKY`, an exception sets it with
`STATE` = `ERROR`, reset alone clears it. -/
theorem stickyIsSetByErrorsAndClearedByResetOnly : Obligations.StickyIsSetByErrorsAndClearedByResetOnly := by
  intro s t h
  rcases step_status h with hst | hst | ⟨e, hst⟩ | ⟨hst, rest, hp⟩ <;> rw [hst]
  · exact ⟨fun hset _ => hset, fun hclear hset => by simp [hclear] at hset⟩
  · have hkept : statusSticky (statusAfterDone s.status) = statusSticky s.status := statusSticky_pack _ _ _
    rw [hkept]
    exact ⟨fun hset _ => hset, fun hclear hset => by simp [hclear] at hset⟩
  · exact ⟨fun _ _ => statusSticky_pack _ _ _, fun _ _ => statusState_pack _ _ _⟩
  · exact ⟨fun _ hno => absurd hp (hno rest), fun _ hset => absurd hset (by decide)⟩

/-- Settles O14, by the cases of a step: an operation's frame holds the configuration, and no host access or reset writes
it. -/
theorem noStepChangesTheConfiguration : Obligations.NoStepChangesTheConfiguration := by
  intro s t h
  rcases step_cases h with ⟨-, rfl⟩ | ⟨w, rest, i, out, -, -, hf⟩ | ⟨w, rest, e, -, rfl⟩ | ⟨r, w, rest, -, -, rfl⟩ |
    ⟨a, b, rest, -, -, rfl⟩ | ⟨a, rest, v, n, -, -, rfl⟩ | ⟨rest, -, rfl⟩
  · rfl
  · exact hf.frame.cfg
  · rfl
  · simp
  · rfl
  · rfl
  · rfl

end Sys2Proof.Machine
end

section
/-! SUPPORT. What every instruction ends with and what it leaves unchanged (10_state.md R14, R25; 60_exceptions.md R150,
R153). -/

namespace Sys2Proof.Machine

/-- An operation writes no other result register than those of R11. -/
theorem writes_subset_resultRegs (c : Command) : c.writes ⊆ resultRegs := by
  cases c <;> simp [Command.writes, resultRegs]

/-- What the end of an operation may write is no operand register (R11, R25). -/
theorem not_written_of_mem_operandRegs {r : Reg} (hr : r ∈ operandRegs) :
    r ∉ .status :: .outlen :: resultRegs := by
  fin_cases hr <;> decide

/-- Every instruction writes `STATUS`, `OUTLEN` and result registers at most, in a success and in an exception. -/
theorem exec_frame {i : Instr} {s t : State} (h : exec i s = .next t) :
    Frame (.status :: .outlen :: resultRegs) s t := by
  rcases exec_cases i s with ⟨u, out, hu, hf⟩ | ⟨e, hu⟩ <;> rw [hu] at h <;> cases h
  · exact hf.frame.mono fun r hr =>
      List.cons_subset_cons _ (List.cons_subset_cons _ (writes_subset_resultRegs i.command)) hr
  · exact (State.raise_raised s e).frame

/-- Every instruction keeps every operand register (R11, R25). -/
theorem exec_operand_reg {i : Instr} {s t : State} (h : exec i s = .next t) {r : Reg} (hr : r ∈ operandRegs) :
    t.reg r = s.reg r :=
  (exec_frame h).regs r (not_written_of_mem_operandRegs hr)

/-- Settles O15, by the two ends of an instruction, each with its frame. -/
theorem everyOperationEndsDoneOrInOneError : Obligations.EveryOperationEndsDoneOrInOneError := by
  intro i s
  rcases exec_cases i s with ⟨t, out, h, hf⟩ | ⟨e, h⟩
  · exact ⟨t, h, .inl ⟨out, hf.succeeds, hf.frame⟩, fun r hr => exec_operand_reg h hr, (exec_frame h).ibuf_bytes⟩
  · exact ⟨_, h, .inr ⟨e, State.raise_raised s e⟩, fun r hr => exec_operand_reg h hr, (exec_frame h).ibuf_bytes⟩

end Sys2Proof.Machine
end

section
/-! SUPPORT. What an operation answers is a function of the operands it reads: two states that agree on them give the same
result (10_state.md R14, R15, R25). -/

namespace Sys2Proof.Machine

/-! ### Two states with the same operands, two answers with the same result -/

/-- The two states give an operation the same operands: the registers it reads (of `LAYERS` only the normalised count,
R15), the input bytes below `INLEN` if it reads input, the configuration, and the draws. -/
structure SameOperands (c : Command) (s₁ s₂ : State) : Prop where
  regs : ∀ r ∈ c.reads, r ≠ .layers → s₁.reg r = s₂.reg r
  layerCount : .layers ∈ c.reads → s₁.layerCount = s₂.layerCount
  input : c.readsInput = true → ∀ a, a < s₁.inlen.toNat → s₁.ibufByte a = s₂.ibufByte a
  cfg : s₁.cfg = s₂.cfg
  draws : s₁.draws = s₂.draws

/-- Two answers of an operation say the same: the same exception, or successes with the same `OUTLEN`, output and
registers `ws`. -/
inductive SameResult (ws : List Reg) : Except Exc State → Except Exc State → Prop
  | error (e : Exc) : SameResult ws (.error e) (.error e)
  | ok {t₁ t₂ : State} (houtlen : t₁.outlen = t₂.outlen) (hobuf : t₁.obuf = t₂.obuf)
      (hregs : ∀ r ∈ ws, t₁.reg r = t₂.reg r) : SameResult ws (.ok t₁) (.ok t₂)

/-- Both answers begin with the same test. -/
theorem SameResult.ite {ws : List Reg} {p : Prop} [Decidable p] {x₁ x₂ y₁ y₂ : Except Exc State}
    (hx : p → SameResult ws x₁ x₂) (hy : ¬ p → SameResult ws y₁ y₂) :
    SameResult ws (if p then x₁ else y₁) (if p then x₂ else y₂) := by
  split_ifs with h
  · exact hx h
  · exact hy h

/-- Both answers begin with the test of the same exception. -/
theorem SameResult.raise_if {ws : List Reg} {p : Prop} [Decidable p] {e : Exc} {y₁ y₂ : Except Exc State}
    (hy : ¬ p → SameResult ws y₁ y₂) :
    SameResult ws (if p then .error e else y₁) (if p then .error e else y₂) :=
  .ite (fun _ => .error e) hy

/-- Both answers begin with the same computation. -/
theorem SameResult.bind {α : Type} {ws : List Reg} (x : Except Exc α) {f₁ f₂ : α → Except Exc State}
    (h : ∀ a, SameResult ws (f₁ a) (f₂ a)) : SameResult ws (x >>= f₁) (x >>= f₂) := by
  cases x with
  | error e => exact .error e
  | ok a => exact h a

/-- The same output completed in two states of one configuration, and what is then done with the finished states. -/
theorem SameResult.complete_bind {ws : List Reg} {s₁ s₂ : State} {out : List Byte} {f₁ f₂ : State → Except Exc State}
    (hcfg : s₁.cfg = s₂.cfg) (h : SameResult ws (f₁ (s₁.finish out)) (f₂ (s₂.finish out))) :
    SameResult ws (s₁.complete out >>= f₁) (s₂.complete out >>= f₂) := by
  unfold State.complete
  rw [hcfg]
  split_ifs
  · exact .error _
  · exact .error _
  · exact h

/-- The same output completed in two states of one configuration. -/
theorem SameResult.complete {s₁ s₂ : State} (out : List Byte) (hcfg : s₁.cfg = s₂.cfg) :
    SameResult [] (s₁.complete out) (s₂.complete out) := by
  rw [← bind_pure (s₁.complete out), ← bind_pure (s₂.complete out)]
  exact .complete_bind hcfg (.ok rfl rfl (by simp))

/-! ### The operations, one by one -/

/-- Input bytes that agree are read alike (20_memory.md R40). -/
theorem memRead_congr {s₁ s₂ : State} {n : Nat} (h : ∀ a, a < n → s₁.ibufByte a = s₂.ibufByte a) :
    s₁.memRead 0 n = s₂.memRead 0 n :=
  List.map_congr_left fun a ha => h a (by simpa using ha)

/-- Input fields within input bytes that agree are read alike (20_memory.md R32). -/
theorem u32_congr {s₁ s₂ : State} {n : Nat} (h : ∀ a, a < n → s₁.ibufByte a = s₂.ibufByte a) {o : Nat}
    (ho : o + 4 ≤ n) : s₁.u32 o = s₂.u32 o := by
  unfold State.u32
  rw [h o (by omega), h (o + 1) (by omega), h (o + 2) (by omega), h (o + 3) (by omega)]

/-- An operation that reads input reads the same bytes in both states. -/
theorem SameOperands.memRead_eq {c : Command} {s₁ s₂ : State} (h : SameOperands c s₁ s₂) (hc : c.readsInput = true)
    (hinlen : s₁.inlen = s₂.inlen) : s₁.memRead 0 (uint32 s₂.inlen) = s₂.memRead 0 (uint32 s₂.inlen) :=
  memRead_congr (hinlen ▸ h.input hc)

/-- `CAT.FOURCC` reads the configuration only (40_catalog.md R75). -/
theorem sameResult_catFourcc {v : Variant} {s₁ s₂ : State} (h : SameOperands (.catFourcc v) s₁ s₂) :
    SameResult (Command.catFourcc v).writes (catFourcc v s₁) (catFourcc v s₂) := by
  unfold catFourcc
  refine .raise_if fun _ => .ok rfl rfl ?_
  simp [Command.writes, State.reg, h.cfg]

/-- `CAT.DXGI` reads the configuration only (40_catalog.md R76). -/
theorem sameResult_catDxgi {v : Variant} {s₁ s₂ : State} (h : SameOperands (.catDxgi v) s₁ s₂) :
    SameResult (Command.catDxgi v).writes (catDxgi v s₁) (catDxgi v s₂) := by
  unfold catDxgi
  refine .raise_if fun _ => .ok rfl rfl ?_
  simp [Command.writes, State.reg, h.cfg]

/-- `CAT.VFOURCC` reads `CODE` (40_catalog.md R77). -/
theorem sameResult_catVfourcc {s₁ s₂ : State} (h : SameOperands .catVfourcc s₁ s₂) :
    SameResult Command.catVfourcc.writes (catVfourcc s₁) (catVfourcc s₂) := by
  have hcode : s₁.code = s₂.code := h.regs .code (by decide) (by decide)
  unfold catVfourcc
  rw [h.cfg, hcode]
  cases variantOfFourCC s₂.cfg s₂.code with
  | none => exact .error _
  | some v => exact .ok rfl rfl (by simp [Command.writes, State.reg])

/-- `CAT.VDXGI` reads `CODE` (40_catalog.md R78). -/
theorem sameResult_catVdxgi {s₁ s₂ : State} (h : SameOperands .catVdxgi s₁ s₂) :
    SameResult Command.catVdxgi.writes (catVdxgi s₁) (catVdxgi s₂) := by
  have hcode : s₁.code = s₂.code := h.regs .code (by decide) (by decide)
  unfold catVdxgi
  rw [h.cfg, hcode]
  cases variantOfDxgi s₂.cfg s₂.code with
  | none => exact .error _
  | some v => exact .ok rfl rfl (by simp [Command.writes, State.reg])

/-- `HDR.BUILD` reads the dimensions, the layer count and the mip count (41_header.md R80). -/
theorem sameResult_hdrBuild {v : Variant} {s₁ s₂ : State} (h : SameOperands (.hdrBuild v) s₁ s₂) :
    SameResult (Command.hdrBuild v).writes (hdrBuild v s₁) (hdrBuild v s₂) := by
  have hwidth : s₁.width = s₂.width := h.regs .width (by simp [Command.reads]) (by decide)
  have hheight : s₁.height = s₂.height := h.regs .height (by simp [Command.reads]) (by decide)
  have hmips : s₁.mips = s₂.mips := h.regs .mips (by simp [Command.reads]) (by decide)
  have hlayers := h.layerCount (by simp [Command.reads])
  have hbytes : headerBytes v s₁ = headerBytes v s₂ := by
    simp only [headerBytes, State.widthOp, State.heightOp, State.mipsOp, h.cfg, hwidth, hheight, hmips, hlayers]
  simp only [hdrBuild, State.widthOp, State.heightOp, State.mipsOp, h.cfg, hwidth, hheight, hmips, hlayers, hbytes]
  refine .raise_if fun _ => .raise_if fun _ => .raise_if fun _ => .raise_if fun _ => .raise_if fun _ =>
    .complete_bind h.cfg (.ok rfl rfl ?_)
  simp [Command.writes, State.reg]

/-- `MIP.SIZES` reads the dimensions (42_mip.md R102). -/
theorem sameResult_mipSizes {v : Variant} {s₁ s₂ : State} (h : SameOperands (.mipSizes v) s₁ s₂) :
    SameResult (Command.mipSizes v).writes (mipSizes v s₁) (mipSizes v s₂) := by
  have hwidth : s₁.width = s₂.width := h.regs .width (by simp [Command.reads]) (by decide)
  have hheight : s₁.height = s₂.height := h.regs .height (by simp [Command.reads]) (by decide)
  simp only [mipSizes, State.widthOp, State.heightOp, hwidth, hheight]
  refine .raise_if fun _ => .raise_if fun _ => .raise_if fun _ =>
    .complete_bind h.cfg (.ok rfl rfl ?_)
  simp [Command.writes, State.reg]

/-- `MIP.TAKE` reads the dimensions and the requested level count (42_mip.md R103). -/
theorem sameResult_mipTake {v : Variant} {s₁ s₂ : State} (h : SameOperands (.mipTake v) s₁ s₂) :
    SameResult (Command.mipTake v).writes (mipTake v s₁) (mipTake v s₂) := by
  have hwidth : s₁.width = s₂.width := h.regs .width (by simp [Command.reads]) (by decide)
  have hheight : s₁.height = s₂.height := h.regs .height (by simp [Command.reads]) (by decide)
  have hmips : s₁.mips = s₂.mips := h.regs .mips (by simp [Command.reads]) (by decide)
  simp only [mipTake, State.widthOp, State.heightOp, State.mipsOp, hwidth, hheight, hmips]
  refine .raise_if fun _ => .raise_if fun _ => .raise_if fun _ => .raise_if fun _ =>
    .complete_bind h.cfg (.ok rfl rfl ?_)
  simp [Command.writes, State.reg]

/-- `PIX.ENCODE` reads the layer count and the input (44_pixel_encode.md R135). -/
theorem sameResult_pixEncode {v : Variant} {s₁ s₂ : State} (h : SameOperands (.pixEncode v) s₁ s₂) :
    SameResult (Command.pixEncode v).writes (pixEncode v s₁) (pixEncode v s₂) := by
  have hinlen : s₁.inlen = s₂.inlen := h.regs .inlen (by simp [Command.reads]) (by decide)
  have hlayers := h.layerCount (by simp [Command.reads])
  have hinput := h.memRead_eq rfl hinlen
  simp only [pixEncode, State.inputLength, h.cfg, hinlen, hlayers, hinput]
  exact .raise_if fun _ => .raise_if fun _ => .raise_if fun _ => .complete _ h.cfg

/-- `PIX.DECODE` reads the dimensions, the layer count, the target layer and the input; a NaN's byte is a draw
(43_pixel_decode.md R110, R120). -/
theorem sameResult_pixDecode {v : Variant} {s₁ s₂ : State} (h : SameOperands (.pixDecode v) s₁ s₂) :
    SameResult (Command.pixDecode v).writes (pixDecode v s₁) (pixDecode v s₂) := by
  have hwidth : s₁.width = s₂.width := h.regs .width (by simp [Command.reads]) (by decide)
  have hheight : s₁.height = s₂.height := h.regs .height (by simp [Command.reads]) (by decide)
  have htlayer : s₁.tlayer = s₂.tlayer := h.regs .tlayer (by simp [Command.reads]) (by decide)
  have hinlen : s₁.inlen = s₂.inlen := h.regs .inlen (by simp [Command.reads]) (by decide)
  have hlayers := h.layerCount (by simp [Command.reads])
  have hinput := h.memRead_eq rfl hinlen
  simp only [pixDecode, State.widthOp, State.heightOp, State.targetLayer, State.inputLength, h.cfg, h.draws, hwidth,
    hheight, htlayer, hinlen, hlayers, hinput]
  exact .raise_if fun _ => .raise_if fun _ => .raise_if fun _ => .raise_if fun _ =>
    .bind _ fun _ => .bind _ fun out => .complete out h.cfg

/-- Parses that found the same variant, layer count and header length say the same where the fields they return do. -/
theorem sameResult_parsed {s₁ s₂ : State} (v : Variant) (layers hlen : Nat) (hwidth : s₁.u32 16 = s₂.u32 16)
    (hheight : s₁.u32 12 = s₂.u32 12) (hmips : s₁.u32 28 = s₂.u32 28) :
    SameResult resultRegs (.ok (parsed s₁ v layers hlen)) (.ok (parsed s₂ v layers hlen)) :=
  .ok rfl rfl (by simp [resultRegs, State.reg, parsed, hwidth, hheight, hmips])

/-- `HDR.PARSE` reads the input, each field only after the length test that covers it (41_header.md R92). -/
theorem sameResult_hdrParse {s₁ s₂ : State} (h : SameOperands .hdrParse s₁ s₂) :
    SameResult Command.hdrParse.writes (hdrParse s₁) (hdrParse s₂) := by
  have hlen : s₁.inputLength = s₂.inputLength := congrArg uint32 (h.regs .inlen (by decide) (by decide))
  have hfield : ∀ o, o + 4 ≤ s₂.inputLength → s₁.u32 o = s₂.u32 o := hlen ▸ fun o ho => u32_congr (h.input rfl) ho
  simp only [hdrParse, hlen, h.cfg]
  refine .raise_if fun _ => .raise_if fun hheader => ?_
  rw [headerLength, not_lt] at hheader
  rw [hfield 0 (by omega), hfield 4 (by omega), hfield 76 (by omega), hfield 84 (by omega)]
  refine .raise_if fun _ => .ite (fun _ => .raise_if fun hextended => ?_) fun _ => ?_
  · rw [extendedLength, not_lt] at hextended
    rw [hfield 128 (by omega), hfield 140 (by omega)]
    cases variantOfDxgi s₂.cfg (s₂.u32 128) with
    | none => exact .error _
    | some v => exact sameResult_parsed v _ _ (hfield 16 (by omega)) (hfield 12 (by omega)) (hfield 28 (by omega))
  · cases variantOfFourCC s₂.cfg (s₂.u32 84) with
    | none => exact .error _
    | some v => exact sameResult_parsed v _ _ (hfield 16 (by omega)) (hfield 12 (by omega)) (hfield 28 (by omega))

/-- Every operation answers the same result for the same operands. -/
theorem Command.run_sameResult {c : Command} {s₁ s₂ : State} (h : SameOperands c s₁ s₂) :
    SameResult c.writes (Command.run c s₁) (Command.run c s₂) := by
  cases c with
  | catFourcc v => exact sameResult_catFourcc h
  | catDxgi v => exact sameResult_catDxgi h
  | catVfourcc => exact sameResult_catVfourcc h
  | catVdxgi => exact sameResult_catVdxgi h
  | hdrBuild v => exact sameResult_hdrBuild h
  | hdrParse => exact sameResult_hdrParse h
  | mipSizes v => exact sameResult_mipSizes h
  | mipTake v => exact sameResult_mipTake h
  | pixDecode v => exact sameResult_pixDecode h
  | pixEncode v => exact sameResult_pixEncode h

end Sys2Proof.Machine
end

section
/-! SUPPORT. The two uses of `Command.run_sameResult`: what an operation leaves depends on what it reads alone
(10_state.md R25), and a `LAYERS` that is not positive acts as 1 (R15). -/

namespace Sys2Proof.Machine

/-- States that agree on the registers an operation reads, on the input bytes it reads, on the configuration and on the
draw counter give it the same operands. -/
theorem sameOperands_of_reads {c : Command} {s₁ s₂ : State} (hregs : ∀ r ∈ c.reads, s₁.reg r = s₂.reg r)
    (hinput : c.readsInput = true → ∀ a, a < s₁.inlen.toNat → s₁.ibuf.byte? a = s₂.ibuf.byte? a)
    (hcfg : s₁.cfg = s₂.cfg) (hdraws : s₁.draws = s₂.draws) : SameOperands c s₁ s₂ where
  regs r hr _ := hregs r hr
  layerCount hr := congrArg (fun w => norm (sint32 w)) (hregs .layers hr)
  input hc a ha := by rw [State.ibufByte, State.ibufByte, hinput hc a ha, hdraws]
  cfg := hcfg
  draws := hdraws

/-- An exception gives each result register the draw of its number (60_exceptions.md R150). -/
theorem State.raise_reg_of_mem_resultRegs (s : State) (e : Exc) {r : Reg} (hr : r ∈ resultRegs) :
    (s.raise e).reg r = Config.freeResult s.draws (regNumber r) := by
  fin_cases hr <;> rfl

/-- Settles O16: the two runs have the same result, and a success's `STATE` and `ERR` are always the same, an exception's
those of its code, its result registers those of the draw counter. -/
theorem resultDependsOnlyOnWhatTheOperationReads : Obligations.ResultDependsOnlyOnWhatTheOperationReads := by
  intro c s₁ s₂ t₁ t₂ hregs hinput hcfg hdraws h₁ h₂
  have hsame := Command.run_sameResult (sameOperands_of_reads hregs hinput hcfg hdraws)
  rw [exec_instr] at h₁ h₂
  generalize hrun₁ : Command.run c s₁ = x₁ at hsame h₁
  generalize hrun₂ : Command.run c s₂ = x₂ at hsame h₂
  cases hsame with
  | error e =>
    cases h₁
    cases h₂
    refine ⟨rfl, rfl, rfl, fun _ => rfl, fun r hr => ?_⟩
    have hres : r ∈ resultRegs := writes_subset_resultRegs c hr
    rw [State.raise_reg_of_mem_resultRegs _ _ hres, State.raise_reg_of_mem_resultRegs _ _ hres, hdraws]
  | ok houtlen hobuf hwrites =>
    cases h₁
    cases h₂
    obtain ⟨out₁, hf₁⟩ := Command.run_ok hrun₁
    obtain ⟨out₂, hf₂⟩ := Command.run_ok hrun₂
    exact ⟨hf₁.succeeds.state_done.trans hf₂.succeeds.state_done.symm,
      hf₁.succeeds.err_zero.trans hf₂.succeeds.err_zero.symm, houtlen, fun a => by rw [hobuf], hwrites⟩

/-! ### A layer count that is not positive -/

/-- A state is its sixteen registers and its other fields. -/
theorem State.eq_of_reg_eq {t u : State} (hregs : ∀ r, t.reg r = u.reg r) (hibuf : t.ibuf = u.ibuf)
    (hobuf : t.obuf = u.obuf) (hcfg : t.cfg = u.cfg) (hpending : t.pending = u.pending)
    (hreturned : t.returned = u.returned) (hdraws : t.draws = u.draws) : t = u := by
  rw [State.mk.injEq]
  exact ⟨hregs .cmd, hregs .width, hregs .height, hregs .layers, hregs .mips, hregs .tlayer, hregs .inlen, hregs .code,
    hregs .status, hregs .outlen, hregs .rvariant, hregs .rwidth, hregs .rheight, hregs .rlayers, hregs .rmips,
    hregs .rcode, hibuf, hobuf, hcfg, hpending, hreturned, hdraws⟩

/-- Another `LAYERS` with the same normalised count gives every operation the same operands (R15). -/
theorem sameOperands_set_layers (c : Command) {s : State} {l : Word}
    (hcount : s.layerCount = (s.hostSet .layers l).layerCount) : SameOperands c s (s.hostSet .layers l) where
  regs _ _ hr := (State.hostSet_reg_ne s l hr.symm).symm
  layerCount _ := hcount
  input _ _ _ := rfl
  cfg := rfl
  draws := rfl

/-- Successes with the same result, begun in states that differ in `LAYERS` only, end in states that do. -/
theorem FinishedWith.eq_set_layers {s t u : State} {out out' : List Byte} {ws : List Reg} {l : Word}
    (ht : FinishedWith s t out ws) (hu : FinishedWith (s.hostSet .layers l) u out' ws) (hws : .layers ∉ ws)
    (houtlen : t.outlen = u.outlen) (hobuf : t.obuf = u.obuf) (hwrites : ∀ r ∈ ws, t.reg r = u.reg r) :
    u = t.hostSet .layers l := by
  refine State.eq_of_reg_eq (fun r => ?_) (hu.ibuf.trans ht.ibuf.symm) hobuf.symm (hu.frame.cfg.trans ht.frame.cfg.symm)
    (hu.frame.pending.trans ht.frame.pending.symm) (hu.frame.returned.trans ht.frame.returned.symm)
    (hu.draws.trans ht.draws.symm)
  by_cases hlayers : r = .layers
  · subst hlayers
    exact hu.frame.regs .layers (by simp [hws])
  · rw [State.hostSet_reg_ne t l (Ne.symm hlayers)]
    by_cases hwritten : r ∈ .status :: .outlen :: ws
    · rcases List.mem_cons.1 hwritten with rfl | hwritten
      · exact hu.status.trans ht.status.symm
      · rcases List.mem_cons.1 hwritten with rfl | hwritten
        · exact houtlen.symm
        · exact (hwrites r hwritten).symm
    · rw [hu.frame.regs r hwritten, ht.frame.regs r hwritten, State.hostSet_reg_ne s l (Ne.symm hlayers)]

/-- An instruction under another `LAYERS` with the same normalised count does the same, `LAYERS` itself apart. -/
theorem exec_set_layers (c : Command) {s t : State} {l : Word}
    (hcount : s.layerCount = (s.hostSet .layers l).layerCount) (h : exec c.instr s = .next t) :
    exec c.instr (s.hostSet .layers l) = .next (t.hostSet .layers l) := by
  have hsame := Command.run_sameResult (sameOperands_set_layers c hcount)
  rw [exec_instr] at h ⊢
  generalize hrun : Command.run c s = x at hsame h
  generalize hrun' : Command.run c (s.hostSet .layers l) = x' at hsame ⊢
  cases hsame with
  | error e =>
    cases h
    rfl
  | ok houtlen hobuf hwrites =>
    cases h
    obtain ⟨out, ht⟩ := Command.run_ok hrun
    obtain ⟨out', hu⟩ := Command.run_ok hrun'
    have hws : .layers ∉ c.writes := fun hm => absurd (writes_subset_resultRegs c hm) (by decide)
    rw [settle_ok, ht.eq_set_layers hu hws houtlen hobuf hwrites]

/-- A layer count that is not positive acts as 1 (R15). -/
theorem State.layerCount_of_nonpos {s : State} (h : s.layers.toInt ≤ 0) : s.layerCount = 1 := if_pos h

/-- Settles O20: the normalised layer count is 1 in both runs, and no operation writes `LAYERS`. -/
theorem nonPositiveLayerCountActsAsOne : Obligations.NonPositiveLayerCountActsAsOne := by
  intro c s t hl h
  have hcount : s.layerCount = (s.hostSet .layers 1).layerCount := State.layerCount_of_nonpos hl
  exact ⟨exec_operand_reg h (r := .layers) (by decide), exec_set_layers c hcount h⟩

end Sys2Proof.Machine
end

section
/-! SUPPORT. The host's interface: a command, a register write, an input byte write and a reset as one step; the registers
after reset and the status words (10_state.md R11 to R13, R19, R22, R23; 30_encoding.md R45 to R49; 60_exceptions.md
R141, R150). -/

namespace Sys2Proof.Machine

/-- The three fields of a command's word (30_encoding.md R46 to R48). -/
theorem fields_encode (c : Command) : opField (encode c.instr) = c.opCode ∧
    varField (encode c.instr) = c.varCode ∧ zeroField (encode c.instr) = 0 := by
  have hop : c.opCode < 256 := by cases c <;> simp [Command.opCode]
  have hvar : c.varCode < 256 := by
    have hcode : ∀ v : Variant, v.code < 256 := by intro v; cases v <;> decide
    unfold Command.varCode
    split
    · exact hcode _
    · decide
  obtain ⟨h1, h2, h3⟩ := fields_toNat (encode c.instr)
  rw [toNat_encode] at h1 h2 h3
  omega

/-- The decoder gives back what was encoded (30_encoding.md R45). -/
theorem decode_encode (i : Instr) : decode (encode i) = .ok i := by
  obtain ⟨c, rfl⟩ : ∃ c : Command, c.instr = i := ⟨i.command, i.command_instr⟩
  obtain ⟨hop, hvar, hzero⟩ := fields_encode c
  have hcode : ∀ v : Variant, Variant.ofCode v.code = some v := fun v => (Variant.ofCode_eq_some_iff _ v).2 rfl
  unfold decode
  rw [hop, hvar, hzero]
  cases c <;> simp [operationOf, Command.opCode, Command.varCode, Command.variant?, hcode]

/-- A command whose word decodes, under a well-formed configuration, runs its instruction. -/
theorem codecStep_of_decode {s : State} {w : Word} {i : Instr} (hwf : s.cfg.Wf) (hi : decode w = .ok i) :
    codecStep w s = exec i s := by
  rw [codecStep_of_wf hwf, hi]

/-- Settles O4: the step takes the command off the queue, and a well-formed configuration lets it run what its word decodes
to. -/
theorem stepRunsTheDecodedInstruction : Obligations.StepRunsTheDecodedInstruction := by
  constructor
  · intro s w rest i hp hwf hi
    rw [step_cons hp, perform_writeCmd]
    exact codecStep_of_decode hwf hi
  · intro s i hwf
    rw [step_withFetchWord, BitVec.ofNat_toNat, BitVec.setWidth_eq]
    exact codecStep_of_decode hwf (decode_encode i)

/-- The queue of actions is no register. -/
@[simp] theorem State.reg_set_pending (s : State) (rest : List HostAction) (r : Reg) :
    ({ s with pending := rest } : State).reg r = s.reg r := by
  cases r <;> rfl

/-- Settles O5, by what a host write does to the register itself and to every other. -/
theorem hostRegisterWriteChangesOnlyThatRegister : Obligations.HostRegisterWriteChangesOnlyThatRegister := by
  refine ⟨by decide, fun s r w rest hp hr => ?_⟩
  refine ⟨({ s with pending := rest } : State).hostSet r w, ?_, ?_, ?_, by simp, by simp, by simp, by simp, by simp,
    by simp⟩
  · rw [step_cons hp, perform_writeReg hr]
  · simp only [State.hostSet_reg_self, State.reg_set_pending, Nat.lt_succ_iff]
  · intro q hq
    rw [State.hostSet_reg_ne _ w hq.symm, State.reg_set_pending]

/-- A host write of an input byte within the capacity puts the byte there (R19). -/
theorem writeInputByte_of_fits {s : State} {a : Nat} (b : Byte) (h : fits (a + 1) s.cfg.ibufCap) :
    writeInputByte a b s = .next { s with ibuf := s.ibuf.put a b } := by
  unfold writeInputByte
  rw [(exceeds_eq_false_iff _ _).2 h]
  rfl

/-- Settles O6, by what a buffer reads after one byte was put. -/
theorem hostInputWriteChangesOnlyThatByte : Obligations.HostInputWriteChangesOnlyThatByte := by
  intro s a b rest hp hf
  refine ⟨{ s with pending := rest, ibuf := s.ibuf.put a b }, ?_, Memory.byte?_put_self _ a b,
    fun x hx => Memory.byte?_put_ne _ b hx, fun q => ?_, rfl, rfl, rfl, rfl, rfl⟩
  · rw [step_cons hp]
    exact writeInputByte_of_fits b hf
  · cases q <;> rfl

/-- The reset action gives every register its reset value (R22). -/
theorem State.applyReset_reg (s : State) (r : Reg) : s.applyReset.reg r = State.reset.reg r := by
  cases r <;> rfl

/-- Settles O9. -/
theorem registersAfterReset : Obligations.RegistersAfterReset := by
  refine ⟨fun r hr => ?_, rfl, by decide, by decide, by decide, by decide, fun s => ⟨_, rfl, s.applyReset_reg⟩⟩
  cases r with
  | tlayer => exact absurd rfl hr
  | _ => rfl

/-- Settles O10: the step is the reset, and both buffers it leaves are empty. -/
theorem resetActionRestoresResetValues : Obligations.ResetActionRestoresResetValues := by
  intro s rest hp
  exact ⟨_, step_cons hp, State.applyReset_reg _, Memory.byte?_nil, Memory.byte?_nil, rfl, rfl, rfl, rfl⟩

/-- The status word of an exception as a number (R150). -/
theorem toNat_statusAfterError (e : Exc) : (statusAfterError e).toNat = 0x102 + 16 * e.code.toNat := by
  cases e <;> decide

/-- The two status words of a success (R14). -/
theorem statusAfterDone_eq (old : Word) : statusAfterDone old = if statusSticky old then 0x101 else 0x001 := by
  unfold statusAfterDone
  cases statusSticky old <;> decide

/-- Settles O19. -/
theorem statusWordsAndExceptionCodes : Obligations.StatusWordsAndExceptionCodes :=
  ⟨by decide, fun _ e => toNat_statusAfterError e, fun s _ => statusAfterDone_eq s.status⟩

end Sys2Proof.Machine
end

section
/-! SUPPORT. Host reads as one step (20_memory.md R39, 10_state.md R20). -/

namespace Sys2Proof.Machine

/-- A host read of an `OBUF` byte that holds a value returns it (R20). -/
theorem readOutputByte_of_some {s : State} {a : Nat} {b : Byte} (hfits : fits (a + 1) s.cfg.obufCap)
    (hb : s.obuf.byte? a = some b) : readOutputByte a s = .next { s with returned := .byte b :: s.returned } := by
  unfold readOutputByte
  rw [(exceeds_eq_false_iff _ _).2 hfits, hb]
  rfl

/-- A host read of an `OBUF` byte that holds no value returns a draw (R20, R23). -/
theorem readOutputByte_of_none {s : State} {a : Nat} (hfits : fits (a + 1) s.cfg.obufCap)
    (hb : s.obuf.byte? a = none) : readOutputByte a s = .next { s with
      returned := .byte (Config.freeObufByte s.draws a) :: s.returned, draws := s.draws + 1 } := by
  unfold readOutputByte
  rw [(exceeds_eq_false_iff _ _).2 hfits, hb]
  rfl

/-- Settles O7: the step is the read, of a register, of a byte that holds a value, of one that holds none. -/
theorem hostReadsReturnTheValueAndChangeNothing : Obligations.HostReadsReturnTheValueAndChangeNothing := by
  refine ⟨fun s r rest hp => ?_, fun s a b rest hp hfits hb => ?_, fun s a rest hp hfits hb =>
    ⟨Config.freeObufByte s.draws a, ?_⟩⟩
  · rw [step_cons hp, perform, State.reg_set_pending]
  · rw [step_cons hp]
    exact readOutputByte_of_some hfits hb
  · rw [step_cons hp]
    exact readOutputByte_of_none hfits hb

end Sys2Proof.Machine
end

section
/-! SUPPORT. The draw counter enters an operation's result only through an input byte that holds no value and through a
half-float NaN (10_state.md R26; 43_pixel_decode.md R120; log entry 4), so a repeated command repeats its outcome
(20_memory.md R39). -/

namespace Sys2Proof.Machine

/-! ### Another draw counter -/

/-- Stage 1 of every variant but the half-float one makes no draw (43_pixel_decode.md R120). -/
theorem stage1_draw_irrelevant {v : Variant} (hv : v ≠ .a16b16g16r16f) (cfg : Config) (draw draw' : Nat)
    (input : List Byte) (w h layers : Nat) :
    stage1 cfg draw input w h layers v = stage1 cfg draw' input w h layers v := by
  cases v with
  | a16b16g16r16f => exact absurd rfl hv
  | _ => rfl

/-- An input byte that holds a value is read the same whatever the draw counter (20_memory.md R41). -/
theorem State.ibufByte_set_draws {s : State} {a : Nat} (h : (s.ibuf.byte? a).isSome = true) (n : Nat) :
    ({ s with draws := n } : State).ibufByte a = s.ibufByte a := by
  obtain ⟨b, hb⟩ := Option.isSome_iff_exists.1 h
  simp only [State.ibufByte, hb, Option.getD_some]

/-- A parse whose input bytes read the same under another draw counter answers the same: each field it reads lies within
the input (41_header.md R92). -/
theorem sameResult_hdrParse_set_draws {s : State} (n : Nat)
    (hinput : ∀ a, a < s.inlen.toNat → s.ibufByte a = ({ s with draws := n } : State).ibufByte a) :
    SameResult Command.hdrParse.writes (hdrParse s) (hdrParse { s with draws := n }) := by
  have hfield : ∀ o, o + 4 ≤ s.inputLength → s.u32 o = ({ s with draws := n } : State).u32 o := fun _ => u32_congr hinput
  unfold hdrParse
  refine .raise_if fun _ => .raise_if fun hheader => ?_
  rw [headerLength, not_lt] at hheader
  rw [hfield 0 (by omega), hfield 4 (by omega), hfield 76 (by omega), hfield 84 (by omega)]
  refine .raise_if fun _ => .ite (fun _ => .raise_if fun hextended => ?_) fun _ => ?_
  · rw [extendedLength, not_lt] at hextended
    rw [hfield 128 (by omega), hfield 140 (by omega)]
    cases variantOfDxgi s.cfg (({ s with draws := n } : State).u32 128) with
    | none => exact .error _
    | some v => exact sameResult_parsed v _ _ (hfield 16 (by omega)) (hfield 12 (by omega)) (hfield 28 (by omega))
  · cases variantOfFourCC s.cfg (({ s with draws := n } : State).u32 84) with
    | none => exact .error _
    | some v => exact sameResult_parsed v _ _ (hfield 16 (by omega)) (hfield 12 (by omega)) (hfield 28 (by omega))

/-- An operation that reads no unwritten input byte and is not the half-float decode answers the same result whatever the
draw counter (log entry 4). -/
theorem Command.run_set_draws {c : Command} {s : State} (n : Nat) (hc : c ≠ .pixDecode .a16b16g16r16f)
    (hinput : c.readsInput = true → ∀ a, a < s.inlen.toNat → (s.ibuf.byte? a).isSome = true) :
    SameResult c.writes (Command.run c s) (Command.run c { s with draws := n }) := by
  have hbyte : c.readsInput = true → ∀ a, a < s.inlen.toNat → s.ibufByte a = ({ s with draws := n } : State).ibufByte a :=
    fun hr a ha => (State.ibufByte_set_draws (hinput hr a ha) n).symm
  cases c with
  | catFourcc v => exact .raise_if fun _ => .ok rfl rfl fun _ _ => rfl
  | catDxgi v => exact .raise_if fun _ => .ok rfl rfl fun _ _ => rfl
  | catVfourcc =>
    simp only [Command.run, catVfourcc]
    cases variantOfFourCC s.cfg s.code with
    | none => exact .error _
    | some v => exact .ok rfl rfl fun _ _ => rfl
  | catVdxgi =>
    simp only [Command.run, catVdxgi]
    cases variantOfDxgi s.cfg s.code with
    | none => exact .error _
    | some v => exact .ok rfl rfl fun _ _ => rfl
  | hdrBuild v =>
    exact .raise_if fun _ => .raise_if fun _ => .raise_if fun _ => .raise_if fun _ => .raise_if fun _ =>
      .complete_bind rfl (.ok rfl rfl fun _ _ => rfl)
  | hdrParse => exact sameResult_hdrParse_set_draws n (hbyte rfl)
  | mipSizes v =>
    exact .raise_if fun _ => .raise_if fun _ => .raise_if fun _ => .complete_bind rfl (.ok rfl rfl fun _ _ => rfl)
  | mipTake v =>
    exact .raise_if fun _ => .raise_if fun _ => .raise_if fun _ => .raise_if fun _ =>
      .complete_bind rfl (.ok rfl rfl fun _ _ => rfl)
  | pixDecode v =>
    have hv : v ≠ .a16b16g16r16f := fun h => hc (congrArg _ h)
    have hmem := memRead_congr (hbyte rfl)
    simp only [Command.run, pixDecode, State.inputLength, uint32, hmem, stage1_draw_irrelevant hv _ s.draws n]
    exact .raise_if fun _ => .raise_if fun _ => .raise_if fun _ => .raise_if fun _ =>
      .bind _ fun _ => .bind _ fun out => .complete out rfl
  | pixEncode v =>
    have hmem := memRead_congr (hbyte rfl)
    simp only [Command.run, pixEncode, State.inputLength, uint32, hmem]
    exact .raise_if fun _ => .raise_if fun _ => .raise_if fun _ => .complete _ rfl

/-! ### A repeated command -/

/-- Saying the same passes on from answer to answer. -/
theorem SameResult.trans {ws : List Reg} {x y z : Except Exc State} (hxy : SameResult ws x y) (hyz : SameResult ws y z) :
    SameResult ws x z := by
  cases hxy with
  | error e => exact hyz
  | ok houtlen hobuf hregs =>
    cases hyz with
    | ok houtlen' hobuf' hregs' =>
      exact .ok (houtlen.trans houtlen') (hobuf.trans hobuf') fun r hr => (hregs r hr).trans (hregs' r hr)

/-- An operation reads operand registers only (R25). -/
theorem reads_subset_operandRegs (c : Command) : c.reads ⊆ operandRegs := by
  cases c <;> simp [Command.reads, operandRegs]

/-- The state an instruction leaves gives an operation the operands of the state it began in, the draw counter apart
(R11, R25; 70_reset_and_hazards.md R173). -/
theorem sameOperands_of_exec (c : Command) {i : Instr} {s t : State} (h : exec i s = .next t) :
    SameOperands c { s with draws := t.draws } t :=
  sameOperands_of_reads (fun _ hr => (exec_operand_reg h (reads_subset_operandRegs c hr)).symm)
    (fun _ a _ => ((exec_frame h).ibuf_bytes a).symm) (exec_frame h).cfg.symm rfl

/-- Answers with the same result, taken, end in states of the same `STATE`, `ERR`, `OUTLEN` and output, and after a success
with the same result registers. -/
theorem exec_of_sameResult {c : Command} {s₁ s₂ t₁ : State}
    (hsame : SameResult c.writes (Command.run c s₁) (Command.run c s₂)) (h₁ : exec c.instr s₁ = .next t₁) :
    ∃ t₂, exec c.instr s₂ = .next t₂ ∧ statusState t₂.status = statusState t₁.status ∧
      statusErr t₂.status = statusErr t₁.status ∧ t₂.outlen = t₁.outlen ∧ (∀ a, t₂.obuf.byte? a = t₁.obuf.byte? a) ∧
      (statusState t₁.status = stateDone → ∀ r ∈ c.writes, t₂.reg r = t₁.reg r) := by
  rw [exec_instr] at h₁ ⊢
  generalize hrun₁ : Command.run c s₁ = x₁ at hsame h₁
  generalize hrun₂ : Command.run c s₂ = x₂ at hsame ⊢
  cases hsame with
  | error e =>
    cases h₁
    have hnotDone : statusState (s₁.raise e).status ≠ stateDone := by
      rw [(s₁.raise_raised e).state_error]
      decide
    exact ⟨_, rfl, rfl, rfl, rfl, fun _ => rfl, fun hdone => absurd hdone hnotDone⟩
  | ok houtlen hobuf hwrites =>
    cases h₁
    obtain ⟨out₁, hf₁⟩ := Command.run_ok hrun₁
    obtain ⟨out₂, hf₂⟩ := Command.run_ok hrun₂
    exact ⟨_, rfl, hf₂.succeeds.state_done.trans hf₁.succeeds.state_done.symm,
      hf₂.succeeds.err_zero.trans hf₁.succeeds.err_zero.symm, houtlen.symm, fun a => by rw [hobuf],
      fun _ r hr => (hwrites r hr).symm⟩

/-- Settles O17: the draw counter is the only operand an instruction changes, and here no draw enters the result. -/
theorem repeatedCommandRepeatsItsOutcome : Obligations.RepeatedCommandRepeatsItsOutcome := by
  intro c s t h hinput hc
  have hsame : SameResult c.writes (Command.run c s) (Command.run c t) :=
    (Command.run_set_draws t.draws hc hinput).trans (Command.run_sameResult (sameOperands_of_exec c h))
  exact exec_of_sameResult hsame h

end Sys2Proof.Machine
end

section
/-! SUPPORT. What the decoder answers, one equation per branch, and its inversion (30_encoding.md R45 to R49). -/

namespace Sys2Proof

/-- An operation that takes no variant is selected by its own code (R48). -/
theorem opCode_of_plain {n : Nat} {c : Command} (h : operationOf n = some (.plain c)) :
    n = c.opCode ∧ c.varCode = 0 := by
  unfold operationOf at h
  split at h <;> cases h <;> exact ⟨rfl, rfl⟩

/-- An operation that takes a variant is selected by its own code, whatever the variant (R48). -/
theorem opCode_of_variant {n : Nat} {f : Variant → Command} (h : operationOf n = some (.variant f)) (v : Variant) :
    n = (f v).opCode ∧ (f v).variant? = some v := by
  unfold operationOf at h
  split at h <;> cases h <;> exact ⟨rfl, rfl⟩

/-- The `VAR` field of a command that takes a variant is the variant's code (R46). -/
theorem Command.varCode_of_variant {c : Command} {v : Variant} (h : c.variant? = some v) : c.varCode = v.code := by
  rw [Command.varCode, h]

/-- The seven codes of the operations that take a variant (R48). -/
theorem exists_variant_operation {n : Nat} (h : n ∈ [0x01, 0x02, 0x10, 0x20, 0x21, 0x30, 0x31]) :
    ∃ f, operationOf n = some (.variant f) := by
  fin_cases h <;> exact ⟨_, rfl⟩

/-- The three codes of the operations that take none (R48). -/
theorem exists_plain_operation {n : Nat} (h : n ∈ [0x03, 0x04, 0x11]) : ∃ c, operationOf n = some (.plain c) := by
  fin_cases h <;> exact ⟨_, rfl⟩

/-- A word with a high bit set is rejected first (R49 (a)). -/
theorem decode_of_high {w : Word} (h : zeroField w ≠ 0) : decode w = .error .highBitsSet := if_pos h

/-- An operation code that is none of the ten is rejected next (R49 (b)). -/
theorem decode_of_unknown {w : Word} (hz : zeroField w = 0) (h : operationOf (opField w) = none) :
    decode w = .error .unknownOperation := by
  simp [decode, hz, h]

/-- The words of an operation that takes no variant: `VAR` must be 0 (R49 (c)). -/
theorem decode_of_plain {w : Word} {c : Command} (hz : zeroField w = 0)
    (h : operationOf (opField w) = some (.plain c)) :
    decode w = if varField w ≠ 0 then .error .variantNotTaken else .ok c.instr := by
  simp [decode, hz, h]

/-- A `VAR` that is no variant's code is rejected last (R49 (d)). -/
theorem decode_of_no_variant {w : Word} {f : Variant → Command} (hz : zeroField w = 0)
    (h : operationOf (opField w) = some (.variant f)) (hv : Variant.ofCode (varField w) = none) :
    decode w = .error .variantOutOfRange := by
  simp [decode, hz, h, hv]

/-- The words of an operation that takes a variant name the command of that variant (R45, R48). -/
theorem decode_of_variant {w : Word} {f : Variant → Command} {v : Variant} (hz : zeroField w = 0)
    (h : operationOf (opField w) = some (.variant f)) (hv : Variant.ofCode (varField w) = some v) :
    decode w = .ok (f v).instr := by
  simp [decode, hz, h, hv]

/-- A word that decodes holds the three fields of a command that is the instruction (R46 to R48). -/
theorem fields_of_decode {w : Word} {i : Instr} (h : decode w = .ok i) :
    ∃ c : Command, i = c.instr ∧ zeroField w = 0 ∧ opField w = c.opCode ∧ varField w = c.varCode := by
  have hz : zeroField w = 0 := by
    by_contra hne
    rw [decode_of_high hne] at h
    cases h
  cases hop : operationOf (opField w) with
  | none =>
    rw [decode_of_unknown hz hop] at h
    cases h
  | some shape =>
    cases shape with
    | plain c =>
      obtain ⟨hcode, hvar⟩ := opCode_of_plain hop
      rw [decode_of_plain hz hop] at h
      split_ifs at h with hne
      cases h
      exact ⟨c, rfl, hz, hcode, by omega⟩
    | variant f =>
      cases hv : Variant.ofCode (varField w) with
      | none =>
        rw [decode_of_no_variant hz hop hv] at h
        cases h
      | some v =>
        obtain ⟨hcode, hvar⟩ := opCode_of_variant hop v
        rw [decode_of_variant hz hop hv] at h
        cases h
        exact ⟨f v, rfl, hz, hcode,
          ((Variant.ofCode_eq_some_iff _ _).1 hv).trans (Command.varCode_of_variant hvar).symm⟩

/-- The fields determine the word, so a word that decodes is the encoding of its instruction (R45). -/
theorem eq_encode_of_decode {w : Word} {i : Instr} (h : decode w = .ok i) : w = encode i := by
  obtain ⟨c, rfl, hz, hop, hvar⟩ := fields_of_decode h
  apply BitVec.eq_of_toNat_eq
  rw [toNat_of_zeroField hz, toNat_encode, hop, hvar]

end Sys2Proof

namespace Sys2Proof.Machine

/-- Settles O1: a word that decodes is its instruction's encoding, and the decoder gives back what was encoded. -/
theorem decodeSelectsExactlyTheTableRow : Obligations.DecodeSelectsExactlyTheTableRow :=
  fun _ i => ⟨eq_encode_of_decode, fun h => h ▸ decode_encode i⟩

/-- Settles O2: each word is the encoding of the instruction it stands for. -/
theorem wordsOfTheRulesDecode : Obligations.WordsOfTheRulesDecode := by
  refine ⟨?_, ?_, ?_, ?_, ?_, ?_, ?_, ?_, ?_, ?_, ?_⟩ <;> exact (decodeSelectsExactlyTheTableRow _ _).2 rfl

/-- Settles O25: both columns are closed tables, read off variant by variant. -/
theorem variantMetadataTable : Obligations.VariantMetadataTable := ⟨by decide, by decide⟩

/-- The first check of every operation that takes a variant: `INVALID` raises (40_catalog.md R79, 43_pixel_decode.md
R133, 44_pixel_encode.md R138). -/
theorem run_invalid {c : Command} (h : c.variant? = some .invalid) (s : State) :
    Command.run c s = .error .unsupportedFormat := by
  cases c <;> cases h <;> rfl

/-- A word that decodes to no instruction raises `ILLEGAL_COMMAND` when written to `CMD` (60_exceptions.md R144). -/
theorem perform_illegal {s : State} (hwf : s.cfg.Wf) {w : Word} {reason : Illegal} (h : decode w = .error reason) :
    ∃ t, perform (.writeReg .cmd w) s = .next t ∧ Raised { s with cmd := w } t .illegalCommand := by
  refine ⟨_, ?_, State.raise_raised _ _⟩
  rw [perform_writeCmd, codecStep_of_wf (s := { s with cmd := w }) hwf, h]

/-- A word whose operation takes a variant and whose `VAR` is that of `INVALID` raises `UNSUPPORTED_FORMAT` when written
to `CMD` (R49, R79). -/
theorem perform_invalid {s : State} (hwf : s.cfg.Wf) {w : Word} {f : Variant → Command} (hz : zeroField w = 0)
    (hop : operationOf (opField w) = some (.variant f)) (hvar : varField w = 18) :
    ∃ t, perform (.writeReg .cmd w) s = .next t ∧ Raised { s with cmd := w } t .unsupportedFormat := by
  have hdec : decode w = .ok (f .invalid).instr :=
    decode_of_variant hz hop ((Variant.ofCode_eq_some_iff _ _).2 hvar)
  obtain ⟨-, hvariant⟩ := opCode_of_variant hop .invalid
  rw [perform_writeCmd, codecStep_of_decode (s := { s with cmd := w }) hwf hdec]
  exact raises_of_run (run_invalid hvariant _)

/-- Settles O3: the clauses are the decoder's branches, with the fields read as digits of the word's number. -/
theorem illegalCommandExactlyUnderTheFourConditions : Obligations.IllegalCommandExactlyUnderTheFourConditions := by
  intro w s hwf
  obtain ⟨hop, hvar, hzero⟩ := fields_toNat w
  rw [← hop, ← hvar, ← hzero]
  refine ⟨decode_of_high, fun hz hv hn => decode_of_unknown hz (operationOf_eq_none hv hn), fun hz hn hne => ?_,
    fun hz hv hlt => ?_, fun hz hn h0 => ?_, fun hz hv hle => ?_, fun _ => perform_illegal hwf, fun hz hv h18 => ?_⟩
  · obtain ⟨c, hc⟩ := exists_plain_operation hn
    rw [decode_of_plain hz hc, if_pos hne]
  · obtain ⟨f, hf⟩ := exists_variant_operation hv
    exact decode_of_no_variant hz hf (Variant.ofCode_eq_none hlt)
  · obtain ⟨c, hc⟩ := exists_plain_operation hn
    exact ⟨c.instr, by rw [decode_of_plain hz hc, if_neg (not_not.2 h0)]⟩
  · obtain ⟨f, hf⟩ := exists_variant_operation hv
    obtain ⟨v, hcode⟩ := Variant.exists_ofCode hle
    exact ⟨_, decode_of_variant hz hf hcode⟩
  · obtain ⟨f, hf⟩ := exists_variant_operation hv
    exact perform_invalid hwf hz hf h18

end Sys2Proof.Machine
end

section
/-! SUPPORT. A host program as a run: one lemma per kind of pending action, and the input bytes of an `IBUF` line
(30_encoding.md R66, R67; 10_state.md R19). -/

namespace Sys2Proof.Machine

/-- A length below one that is within a capacity is within it. -/
theorem fits_mono {m n : Nat} {cap : Option Nat} (hmn : m ≤ n) (h : fits n cap) : fits m cap := by
  cases cap with
  | none => rfl
  | some c => simp only [fits, Option.all_some, decide_eq_true_eq] at h ⊢; omega

/-- A buffer after the host wrote bytes at consecutive indices, the lowest first. -/
def Memory.putBytes (m : Memory) (a : Nat) : List Byte → Memory
  | [] => m
  | b :: bs => (m.put a b).putBytes (a + 1) bs

/-- A run of bytes written leaves every byte below it alone. -/
theorem Memory.byte?_putBytes_below (m : Memory) {a x : Nat} (bs : List Byte) (h : x < a) :
    (m.putBytes a bs).byte? x = m.byte? x := by
  induction bs generalizing m a with
  | nil => rfl
  | cons b bs ih => rw [Memory.putBytes, ih _ (by omega), Memory.byte?_put_ne _ _ (by omega)]

/-- From its first index on, a run of bytes written reads the bytes written and behind them the bytes held before. -/
theorem Memory.byte?_putBytes_add (m : Memory) (a i : Nat) (bs : List Byte) :
    (m.putBytes a bs).byte? (a + i) = if i < bs.length then bs[i]? else m.byte? (a + i) := by
  induction bs generalizing m a i with
  | nil => rfl
  | cons b bs ih =>
    rw [Memory.putBytes]
    cases i with
    | zero =>
      rw [Memory.byte?_putBytes_below _ _ (by omega), Nat.add_zero, Memory.byte?_put_self]
      rfl
    | succ i =>
      rw [Nat.add_comm i 1, ← Nat.add_assoc, ih, Memory.byte?_put_ne _ _ (by omega), Nat.add_comm 1 i]
      simp

/-- The state with these actions as the host's queue. -/
def State.queued (s : State) (actions : List HostAction) : State := { s with pending := actions }

/-- A step performs the first action of the queue. -/
theorem step_queued (s : State) (a : HostAction) (rest : List HostAction) :
    step (s.queued (a :: rest)) = perform a (s.queued rest) := step_cons rfl

/-- A program loaded where no action is pending is the queue of its lines' actions. -/
theorem State.load_eq_queued {s : State} (h : s.pending = []) (lines : List HostLine) :
    s.load lines = s.queued (lines.flatMap lineActions) := by
  rw [State.load, h]
  rfl

/-- A state whose queue is empty is itself with an empty queue. -/
theorem State.queued_nil {s : State} (h : s.pending = []) : s.queued [] = s := by
  rw [← h]
  rfl

/-- A run whose next action is a write of a register other than `CMD` holds the word and goes on. -/
theorem run_writeReg {r : Reg} (hr : r ≠ .cmd) (n : Nat) (s : State) (w : Word) (rest : List HostAction) :
    Sys2Proof.core.run (n + 1) (s.queued (.writeReg r w :: rest)) =
      Sys2Proof.core.run n ((s.hostSet r w).queued rest) := by
  have hqueue : (s.queued rest).hostSet r w = (s.hostSet r w).queued rest := by cases r <;> rfl
  rw [← hqueue]
  exact run_succ ((step_queued s _ rest).trans (perform_writeReg hr w _))

/-- A run whose next actions are writes of bytes within the input's capacity holds the bytes and goes on. -/
theorem run_writeIbufs (n a : Nat) (s : State) (bs : List Byte) (rest : List HostAction)
    (hf : fits (a + bs.length) s.cfg.ibufCap) :
    Sys2Proof.core.run (bs.length + n) (s.queued ((bs.mapIdx fun i b => HostAction.writeIbuf (a + i) b) ++ rest)) =
      Sys2Proof.core.run n (({ s with ibuf := s.ibuf.putBytes a bs } : State).queued rest) := by
  induction bs generalizing s a with
  | nil =>
    rw [List.length_nil, Nat.zero_add]
    rfl
  | cons b bs ih =>
    rw [List.length_cons, ← Nat.add_assoc, Nat.add_right_comm] at hf
    have hstep : ∀ queue, step (s.queued (.writeIbuf a b :: queue)) =
        .next (({ s with ibuf := s.ibuf.put a b } : State).queued queue) := fun queue =>
      (step_queued s _ queue).trans (writeInputByte_of_fits (s := s.queued queue) b (fits_mono (by omega) hf))
    have hactions : (b :: bs).mapIdx (fun i c => HostAction.writeIbuf (a + i) c) =
        .writeIbuf a b :: bs.mapIdx fun i c => HostAction.writeIbuf (a + 1 + i) c := by
      simp [List.mapIdx_cons, Nat.add_assoc, Nat.add_comm 1]
    rw [hactions, List.length_cons, Nat.add_right_comm, List.cons_append, run_succ (hstep _)]
    exact ih (a + 1) { s with ibuf := s.ibuf.put a b } hf

/-- A run of one step whose action is a command, under a well-formed configuration, is the command. -/
theorem run_command {s : State} (hwf : s.cfg.Wf) (i : Instr) (rest : List HostAction) :
    Sys2Proof.core.run 1 (s.queued (.writeReg .cmd (encode i) :: rest)) =
      exec i (({ s with cmd := encode i } : State).queued rest) := by
  rw [run_one]
  exact stepRunsTheDecodedInstruction.1 _ _ rest i rfl hwf (decode_encode i)

/-- `Build(v, w, h, l, m)`: four register writes and the command (R67). -/
theorem run_build {s : State} (hp : s.pending = []) (hwf : s.cfg.Wf) (v : Variant) (w h l m : Int) :
    Sys2Proof.core.run 5 (s.load (pseudoLines (.build v w h l m))) =
      exec (Command.hdrBuild v).instr
        { s with
          width := toWord w, height := toWord h, layers := toWord l, mips := toWord m,
          cmd := encode (Command.hdrBuild v).instr } := by
  have hactions : (pseudoLines (.build v w h l m)).flatMap lineActions =
      [.writeReg .width (toWord w), .writeReg .height (toWord h), .writeReg .layers (toWord l),
        .writeReg .mips (toWord m), .writeReg .cmd (encode (Command.hdrBuild v).instr)] := rfl
  rw [State.load_eq_queued hp, hactions, run_writeReg (by decide), run_writeReg (by decide), run_writeReg (by decide),
    run_writeReg (by decide), run_command (by simpa using hwf), State.queued_nil (by simpa using hp)]
  rfl

/-- The state in which `Parse(bytes)` runs its command: the bytes, their number and the command word written. -/
def State.parseReady (s : State) (bytes : List Byte) : State :=
  { s with ibuf := s.ibuf.putBytes 0 bytes, inlen := toWord bytes.length, cmd := encode .hdrParse }

/-- `Parse(bytes)`: the writes of the input, the write of its length, and the command (R67). -/
theorem run_parse {s : State} (hp : s.pending = []) (hwf : s.cfg.Wf) {bytes : List Byte}
    (hf : fits bytes.length s.cfg.ibufCap) :
    Sys2Proof.core.run (bytes.length + 2) (s.load (pseudoLines (.parse bytes))) =
      exec .hdrParse (s.parseReady bytes) := by
  have hactions : (pseudoLines (.parse bytes)).flatMap lineActions =
      (bytes.mapIdx fun i b => HostAction.writeIbuf (0 + i) b) ++
        [.writeReg .inlen (toWord bytes.length), .writeReg .cmd (encode .hdrParse)] := by
    simp [pseudoLines, lineActions]
  rw [State.load_eq_queued hp, hactions, run_writeIbufs _ _ _ _ _ (by rwa [Nat.zero_add]), run_writeReg (by decide),
    run_command (by simpa using hwf), State.queued_nil (by simpa using hp)]
  rfl

/-- The word of a length below 2^32 is the length (R67). -/
theorem toNat_toWord_natCast {n : Nat} (h : n < 2 ^ 32) : (toWord n).toNat = n := by
  rw [toWord, BitVec.ofInt_natCast, BitVec.toNat_ofNat, Nat.mod_eq_of_lt h]

/-- The parse's state differs from the state before in `CMD` and `INLEN` alone, as registers go. -/
theorem State.parseReady_reg (s : State) (bytes : List Byte) {r : Reg} (hcmd : r ≠ .cmd) (hinlen : r ≠ .inlen) :
    (s.parseReady bytes).reg r = s.reg r := by
  cases r with
  | cmd => exact absurd rfl hcmd
  | inlen => exact absurd rfl hinlen
  | _ => rfl

/-- Settles O54: each pseudo-instruction is the run of its lines' actions. -/
theorem pseudoInstructionsRunTheirCommand : Obligations.PseudoInstructionsRunTheirCommand := by
  refine ⟨fun s v w h l m hp hwf => run_build hp hwf v w h l m, fun s bytes hp hwf hf hlt =>
    ⟨s.parseReady bytes, run_parse hp hwf hf, toNat_toWord_natCast hlt, rfl, fun a ha => ?_, fun a ha => ?_,
      fun r => s.parseReady_reg bytes, rfl, rfl, hp, rfl, rfl⟩⟩
  · have hbyte := Memory.byte?_putBytes_add s.ibuf 0 a bytes
    rwa [Nat.zero_add, if_pos ha] at hbyte
  · have hbyte := Memory.byte?_putBytes_add s.ibuf 0 a bytes
    rwa [Nat.zero_add, if_neg (Nat.not_lt.2 ha)] at hbyte

end Sys2Proof.Machine
end

section
/-! SUPPORT. When a host action stops instead of answering a next state (10_state.md R19; 40_catalog.md R74;
93_implementation_defined.md U2, U3; log entries 7, 8, 11). -/

namespace Sys2Proof.Machine

/-- A command is refused under an ill-formed configuration only; no instruction is refused (log entry 7). -/
theorem codecStep_refused {s : State} {w : Word} {f : Refusal} (h : codecStep w s = .refused f) :
    f = .illFormedConfig ∧ ¬ s.cfg.Wf := by
  by_cases hwf : s.cfg.Wf
  · rw [codecStep_of_wf hwf] at h
    split at h
    next i _ => rcases exec_cases i s with ⟨t, _, ht, -⟩ | ⟨e, ht⟩ <;> rw [ht] at h <;> cases h
    next => cases h
  · rw [codecStep_of_not_wf hwf] at h
    cases h
    exact ⟨rfl, hwf⟩

/-- A length that does not fit exceeds the capacity. -/
theorem exceeds_of_not_fits {n : Nat} {cap : Option Nat} (h : ¬ fits n cap) : exceeds n cap = true := by
  rwa [← exceeds_eq_false_iff, Bool.not_eq_false] at h

/-- An input write answers a next state, or faults at an index that the capacity says does not exist (R19). -/
theorem writeInputByte_cases (a : Nat) (b : Byte) (s : State) :
    (∃ t, writeInputByte a b s = .next t) ∨
      (writeInputByte a b s = .fault .ibufIndexAbsent ∧ ¬ fits (a + 1) s.cfg.ibufCap) := by
  by_cases hfits : fits (a + 1) s.cfg.ibufCap
  · exact .inl ⟨_, writeInputByte_of_fits b hfits⟩
  · exact .inr ⟨if_pos (exceeds_of_not_fits hfits), hfits⟩

/-- An output read answers a next state, or faults at an index that the capacity says does not exist (R19). -/
theorem readOutputByte_cases (a : Nat) (s : State) :
    (∃ t, readOutputByte a s = .next t) ∨
      (readOutputByte a s = .fault .obufIndexAbsent ∧ ¬ fits (a + 1) s.cfg.obufCap) := by
  by_cases hfits : fits (a + 1) s.cfg.obufCap
  · cases hb : s.obuf.byte? a with
    | some b => exact .inl ⟨_, readOutputByte_of_some hfits hb⟩
    | none => exact .inl ⟨_, readOutputByte_of_none hfits hb⟩
  · exact .inr ⟨if_pos (exceeds_of_not_fits hfits), hfits⟩

/-- The only actions that fault are the two buffer accesses, each at an absent index. -/
theorem perform_fault {a : HostAction} {s : State} {f : Fault} (h : perform a s = .fault f) :
    (∃ i b, a = .writeIbuf i b ∧ f = .ibufIndexAbsent ∧ ¬ fits (i + 1) s.cfg.ibufCap) ∨
      (∃ i, a = .readObuf i ∧ f = .obufIndexAbsent ∧ ¬ fits (i + 1) s.cfg.obufCap) := by
  cases a with
  | writeReg r w =>
    by_cases hr : r = .cmd
    · subst hr
      exact absurd h codecStep_ne_fault
    · rw [perform_writeReg hr] at h
      cases h
  | writeIbuf i b =>
    rcases writeInputByte_cases i b s with ⟨t, ht⟩ | ⟨ht, hfits⟩ <;> cases ht.symm.trans h
    exact .inl ⟨i, b, rfl, rfl, hfits⟩
  | readObuf i =>
    rcases readOutputByte_cases i s with ⟨t, ht⟩ | ⟨ht, hfits⟩ <;> cases ht.symm.trans h
    exact .inr ⟨i, rfl, rfl, hfits⟩
  | readReg r => cases h
  | reset => cases h

/-- The only action that is refused is a write of `CMD`, under an ill-formed configuration. -/
theorem perform_refused {a : HostAction} {s : State} {f : Refusal} (h : perform a s = .refused f) :
    f = .illFormedConfig ∧ ¬ s.cfg.Wf ∧ ∃ w, a = .writeReg .cmd w := by
  cases a with
  | writeReg r w =>
    by_cases hr : r = .cmd
    · subst hr
      obtain ⟨hf, hwf⟩ := codecStep_refused h
      exact ⟨hf, hwf, w, rfl⟩
    · rw [perform_writeReg hr] at h
      cases h
  | writeIbuf i b => rcases writeInputByte_cases i b s with ⟨t, ht⟩ | ⟨ht, -⟩ <;> cases ht.symm.trans h
  | readObuf i => rcases readOutputByte_cases i s with ⟨t, ht⟩ | ⟨ht, -⟩ <;> cases ht.symm.trans h
  | readReg r => cases h
  | reset => cases h

/-- Settles O8: a step performs the oldest action or none, and the actions that stop are a buffer access at an absent index
and a command under an ill-formed configuration. -/
theorem stepStopsOnlyForAbsentIndexOrIllFormedConfig : Obligations.StepStopsOnlyForAbsentIndexOrIllFormedConfig := by
  intro s
  cases hp : s.pending with
  | nil =>
    rw [step_nil hp]
    exact ⟨fun _ h => (nomatch h), fun _ h => (nomatch h)⟩
  | cons a rest =>
    rw [step_cons hp]
    refine ⟨fun f h => ?_, fun f h => ?_⟩
    · rcases perform_fault h with ⟨i, b, rfl, hf, hfits⟩ | ⟨i, rfl, hf, hfits⟩
      · exact ⟨i, rest, .inl ⟨hf, hfits, b, rfl⟩⟩
      · exact ⟨i, rest, .inr ⟨hf, hfits, rfl⟩⟩
    · obtain ⟨hf, hwf, w, rfl⟩ := perform_refused h
      exact ⟨hf, hwf, w, rest, rfl⟩

end Sys2Proof.Machine
end

section
/-! SUPPORT. The four lookups of the catalog as instructions (40_catalog.md R73 to R79). -/

namespace Sys2Proof.Machine

/-- A lookup that ends with `RVARIANT` written finishes with no output. -/
theorem finishedWith_rvariant (s : State) (w : Word) :
    FinishedWith s { s.finish [] with rvariant := w } [] [.rvariant] :=
  finishedWith_of_finish (by simp) (exceeds_zero _) ⟨_, _, _, _, _, _, rfl, by simp⟩

/-- A lookup that ends with `RCODE` written finishes with no output. -/
theorem finishedWith_rcode (s : State) (w : Word) : FinishedWith s { s.finish [] with rcode := w } [] [.rcode] :=
  finishedWith_of_finish (by simp) (exceeds_zero _) ⟨_, _, _, _, _, _, rfl, by simp⟩

/-- A variant's code as a register value is the code (30_encoding.md R47). -/
theorem toNat_variantWord (v : Variant) : (variantWord v).toNat = v.code := by cases v <;> rfl

/-- The variants other than `INVALID` have the codes up to 17 (30_encoding.md R47). -/
theorem variantCode_le {v : Variant} (h : v ≠ .invalid) : v.code ≤ 17 := by
  cases v with
  | invalid => exact absurd rfl h
  | _ => decide

/-- The extension sentinel is no variant's FourCC (R74 (b)), and it is not 0. -/
theorem variantOfFourCC_extSentinel {cfg : Config} (hsentinel : cfg.SentinelIsNoFourCC) (hzero : cfg.SentinelNotZero) :
    variantOfFourCC cfg cfg.extSentinel = none :=
  (variantOfFourCC_eq_none_iff cfg _).2 <| .inr fun v hv heq => hsentinel v (mem_real.2 hv) (heq ▸ hzero) heq

/-- `CAT.VFOURCC` completes with the variant the reverse FourCC table finds (R77). -/
theorem catVfourcc_completes {s : State} {v : Variant} (h : variantOfFourCC s.cfg s.code = some v) :
    Completes .catVfourcc s { s.finish [] with rvariant := variantWord v } [] [.rvariant] :=
  completes_of_run (c := .catVfourcc) (by rw [Command.run, catVfourcc, h]) (finishedWith_rvariant s _)

/-- `CAT.VFOURCC` raises where the reverse FourCC table has no entry (R77). -/
theorem catVfourcc_raises {s : State} (h : variantOfFourCC s.cfg s.code = none) :
    Raises .catVfourcc s .unsupportedFormat :=
  raises_of_run (c := .catVfourcc) (by rw [Command.run, catVfourcc, h])

/-- `CAT.VDXGI` completes with the variant the reverse DXGI table finds (R78). -/
theorem catVdxgi_completes {s : State} {v : Variant} (h : variantOfDxgi s.cfg s.code = some v) :
    Completes .catVdxgi s { s.finish [] with rvariant := variantWord v } [] [.rvariant] :=
  completes_of_run (c := .catVdxgi) (by rw [Command.run, catVdxgi, h]) (finishedWith_rvariant s _)

/-- `CAT.VDXGI` raises where the reverse DXGI table has no entry (R78). -/
theorem catVdxgi_raises {s : State} (h : variantOfDxgi s.cfg s.code = none) :
    Raises .catVdxgi s .unsupportedFormat :=
  raises_of_run (c := .catVdxgi) (by rw [Command.run, catVdxgi, h])

/-- Settles O23: the reverse FourCC table inverts the forward one, and has no entry for 0, for a code of no variant, and
for the sentinel. -/
theorem catVfourccInvertsTheFourCC : Obligations.CatVfourccInvertsTheFourCC := by
  refine ⟨fun v s hwf hv h0 hcode => ?_, fun s h => ?_, fun s hwf hcode => ?_, rfl⟩
  · obtain ⟨hdistinct, -⟩ := hwf
    have hfind : variantOfFourCC s.cfg s.code = some v :=
      hcode ▸ variantOfFourCC_codes hdistinct hv (hcode ▸ h0)
    exact ⟨_, catVfourcc_completes hfind, toNat_variantWord v, (toNat_variantWord v).trans_le (variantCode_le hv)⟩
  · exact catVfourcc_raises ((variantOfFourCC_eq_none_iff _ _).2 h)
  · obtain ⟨-, hsentinel, -, -, hzero⟩ := hwf
    exact catVfourcc_raises (hcode ▸ variantOfFourCC_extSentinel hsentinel hzero)

/-- Settles O24: the reverse DXGI table inverts the forward one, and has no entry for 0 and for a code of no variant. -/
theorem catVdxgiInvertsTheDxgiCode : Obligations.CatVdxgiInvertsTheDxgiCode := by
  refine ⟨fun v s hwf hv h0 hcode => ?_, fun s h => ?_, rfl⟩
  · obtain ⟨-, -, hdistinct, -⟩ := hwf
    have hfind : variantOfDxgi s.cfg s.code = some v := hcode ▸ variantOfDxgi_codes hdistinct hv (hcode ▸ h0)
    exact ⟨_, catVdxgi_completes hfind, toNat_variantWord v, (toNat_variantWord v).trans_le (variantCode_le hv)⟩
  · exact catVdxgi_raises ((variantOfDxgi_eq_none_iff _ _).2 h)

/-- Every command that takes a variant and is given `INVALID` raises, in every state (R79). -/
theorem raises_of_invalid {c : Command} (h : c.variant? = some .invalid) (s : State) :
    Raises c.instr s .unsupportedFormat :=
  raises_of_run (run_invalid h s)

/-- Settles O18: each of the seven instructions is the one of a command given `INVALID`. -/
theorem invalidVariantAlwaysRaisesUnsupportedFormat : Obligations.InvalidVariantAlwaysRaisesUnsupportedFormat := by
  refine ⟨fun i hi s => ?_, codes_invalid⟩
  have hvariant : i.command.variant? = some .invalid := by fin_cases hi <;> rfl
  exact i.command_instr ▸ raises_of_invalid hvariant s

/-- Settles O21: past the check for `INVALID`, `CAT.FOURCC` finishes with the catalog's code in `RCODE`. -/
theorem catFourccGivesTheFourCC : Obligations.CatFourccGivesTheFourCC := by
  refine fun v s => ⟨toNat_encode _, fun hv => raises_of_invalid (c := .catFourcc v) (congrArg some hv) s, fun hv => ?_⟩
  have hrun : Command.run (.catFourcc v) s = .ok { s.finish [] with rcode := (s.cfg.catalog.codes v).fourCC } :=
    if_neg hv
  exact ⟨_, completes_of_run hrun (finishedWith_rcode s _), rfl⟩

/-- Settles O22: past the check for `INVALID`, `CAT.DXGI` finishes with the catalog's code in `RCODE`. -/
theorem catDxgiGivesTheDxgiCode : Obligations.CatDxgiGivesTheDxgiCode := by
  refine fun v s => ⟨toNat_encode _, fun hv => raises_of_invalid (c := .catDxgi v) (congrArg some hv) s, fun hv => ?_⟩
  have hrun : Command.run (.catDxgi v) s = .ok { s.finish [] with rcode := (s.cfg.catalog.codes v).dxgi } :=
    if_neg hv
  exact ⟨_, completes_of_run hrun (finishedWith_rcode s _), rfl⟩

end Sys2Proof.Machine
end

section
/-! SUPPORT. `HDR.BUILD` in the terms of its rules: what it answers, and the bytes it writes (41_header.md
R80 to R89). -/

namespace Sys2Proof.Machine

/-! ### The tables of R81 and R85 -/

/-- Settles O26: a row of the table for each class, read off variant by variant. -/
theorem pitchOrLinearSizeByClass : Obligations.PitchOrLinearSizeByClass := by
  refine fun cfg w h => ⟨?_, ?_, ?_, ?_, ?_, ?_, rfl⟩ <;> simp [pitchRule, formatClass]

/-- Settles O27: the six variants with cells of their own, then the list of the rest. -/
theorem pixelFormatByVariant : Obligations.PixelFormatByVariant := by
  refine fun cfg => ⟨rfl, rfl, rfl, rfl, rfl, rfl, ?_⟩
  simp [blockCompressed, pixelFormatOf, fourCCOnly]

/-! ### What a build answers -/

/-- The success state of `HDR.BUILD` (R89). -/
def built (v : Variant) (s : State) : State :=
  { s.finish (headerBytes v s) with
    rlayers := BitVec.ofNat 32 s.layerCount
    rcode := BitVec.ofNat 32 (buildPitch s v) }

/-- Either header length fits `OUTLEN`, so only the capacity can keep a build from completing. -/
theorem headerBytes_length_lt (v : Variant) (s : State) : (headerBytes v s).length < 2 ^ 32 := by
  rw [length_headerBytes]
  split_ifs <;> norm_num

/-- R87 as the build tests it: no code at all, then no DXGI code for an extension block. -/
theorem not_buildResolves_iff (v : Variant) (s : State) :
    ¬ BuildResolves s v ↔ ((s.cfg.catalog.codes v).fourCC = 0 ∧ (s.cfg.catalog.codes v).dxgi = 0) ∨
      (useExt s.cfg v s.layerCount = true ∧ (s.cfg.catalog.codes v).dxgi = 0) := by
  rw [useExt_iff]
  tauto

/-- `HDR.BUILD` of a variant but `INVALID`: the exceptions in the order of R89, else the success. -/
theorem hdrBuild_eq {v : Variant} (hv : v ≠ .invalid) (s : State) : hdrBuild v s =
    if ¬ BuildOperandsValid s then .error .operandFault
    else if ¬ BuildResolves s v then .error .unsupportedFormat
    else if 2 ^ 32 ≤ buildPitch s v then .error .fieldOverflow
    else if ¬ fits (headerBytes v s).length s.cfg.obufCap then .error .capacityFault
    else .ok (built v s) := by
  have hoperands : (s.widthOp ≤ 0 ∨ s.heightOp ≤ 0 ∨ s.mipsOp < 1) ↔ ¬ BuildOperandsValid s := by
    simp only [State.widthOp_eq, State.heightOp_eq, State.mipsOp_eq]
    omega
  unfold hdrBuild
  simp only [if_neg hv, hoperands, ← ite_or, ← not_buildResolves_iff]
  refine if_congr .rfl rfl (if_congr .rfl rfl (if_congr .rfl rfl ?_))
  split_ifs with hfits
  · rw [State.complete_of_fits ⟨hfits, headerBytes_length_lt v s⟩]
    rfl
  · rw [State.complete_of_not_fits hfits]
    rfl

/-- A build's success finishes with the header it writes. -/
theorem built_finishedWith {v : Variant} {s : State} (hfits : fits (headerBytes v s).length s.cfg.obufCap) :
    FinishedWith s (built v s) (headerBytes v s) [.rlayers, .rcode] :=
  finishedWith_of_finish (headerBytes_length_lt v s) ((exceeds_eq_false_iff _ _).2 hfits)
    ⟨_, _, _, _, _, _, rfl, by simp⟩

/-- The capacity conditions of the two header lengths, as one. -/
theorem fits_headerBytes_iff (v : Variant) (s : State) : fits (headerBytes v s).length s.cfg.obufCap ↔
    (NeedsExt s v → fits 148 s.cfg.obufCap) ∧ (¬ NeedsExt s v → fits 128 s.cfg.obufCap) := by
  rw [length_headerBytes]
  split_ifs with hext
  · exact ⟨fun h => ⟨fun _ => h, absurd hext⟩, fun h => h.1 hext⟩
  · exact ⟨fun h => ⟨fun he => absurd he hext, fun _ => h⟩, fun h => h.2 hext⟩

/-- `HDR.BUILD` completes where every test of R89 passes. -/
theorem hdrBuild_completes {v : Variant} {s : State} (hv : v ≠ .invalid) (hoperands : BuildOperandsValid s)
    (hresolves : BuildResolves s v) (hpitch : buildPitch s v < 2 ^ 32)
    (hfits : fits (headerBytes v s).length s.cfg.obufCap) :
    Completes (Command.hdrBuild v).instr s (built v s) (headerBytes v s) [.rlayers, .rcode] := by
  refine completes_of_run ?_ (built_finishedWith hfits)
  rw [Command.run, hdrBuild_eq hv, if_neg (not_not.2 hoperands), if_neg (not_not.2 hresolves),
    if_neg (not_le.2 hpitch), if_neg (not_not.2 hfits)]

/-- Settles O29: each exception is a test of R89 that fails after the earlier ones passed. -/
theorem hdrBuildExceptionsInOrder : Obligations.HdrBuildExceptionsInOrder := by
  intro v s hv
  have raises {e : Exc} (h : hdrBuild v s = .error e) : Raises (Command.hdrBuild v).instr s e :=
    raises_of_run (c := .hdrBuild v) h
  rw [hdrBuild_eq hv] at raises
  refine ⟨fun ho => ?_, fun ho hr => ?_, fun ho hr hp => ?_, fun ho hr hp hcap => ?_⟩
  · exact raises (if_pos ho)
  · exact raises (by rw [if_neg (not_not.2 ho), if_pos hr])
  · exact raises (by rw [if_neg (not_not.2 ho), if_neg (not_not.2 hr), if_pos hp])
  · have hfits : ¬ fits (headerBytes v s).length s.cfg.obufCap := by
      rw [fits_headerBytes_iff]
      tauto
    exact raises (by
      rw [if_neg (not_not.2 ho), if_neg (not_not.2 hr), if_neg (not_le.2 hp), if_pos hfits])

/-! ### The bytes a build writes -/

/-- The header a build writes for the operands in `s` (R83 to R88). -/
def headerOf (v : Variant) (s : State) : ContainerHeader where
  flags := s.cfg.flagsBase ||| (pitchRule s.cfg v s.width.toInt.toNat s.height.toInt.toNat).2
  height := s.height
  width := s.width
  pitch := BitVec.ofNat 32 (buildPitch s v)
  mipCount := s.mips
  pf := if NeedsExt s v ∧ s.cfg.pfExtOverride = true then fourCCOnly s.cfg else pixelFormatOf s.cfg v
  fourCC := if NeedsExt s v then s.cfg.extSentinel else (s.cfg.catalog.codes v).fourCC
  caps := if 1 < s.mips.toInt then s.cfg.capsTexture ||| s.cfg.capsMipmap else s.cfg.capsTexture

/-- The extension block a build writes for the operands in `s`, where it needs one (R88). -/
def extensionOf (v : Variant) (s : State) : ExtensionBlock where
  dxgiFormat := (s.cfg.catalog.codes v).dxgi
  arraySize := BitVec.ofNat 32 s.layerCount

/-- A build writes its header, then its extension block where it needs one (R89). -/
theorem headerBytes_eq (v : Variant) (s : State) : headerBytes v s =
    (headerOf v s).bytes ++ if NeedsExt s v then (extensionOf v s).bytes else [] := by
  have hext := useExt_iff s v
  unfold headerBytes headerOf
  by_cases h : NeedsExt s v
  · simp only [hext.2 h, h, Bool.true_and, true_and, if_true]
    rfl
  · simp only [Bool.eq_false_iff.2 (hext.not.2 h), h, Bool.false_and, false_and, if_false, List.append_nil,
      Bool.false_eq_true]
    rfl

/-- A field of the first 128 bytes is the header's. -/
theorem fieldAt_headerBytes {v : Variant} {s : State} {o x : Nat} (h : fieldAt (headerOf v s).bytes o = x)
    (ho : o + 4 ≤ 128 := by norm_num) : fieldAt (headerBytes v s) o = x := by
  rw [headerBytes_eq, fieldAt_append_left _ (by simpa using ho), h]

/-- A field after the first 128 bytes is the extension block's. -/
theorem fieldAt_headerBytes_extension {v : Variant} {s : State} (hext : NeedsExt s v) {o k x : Nat}
    (h : fieldAt (extensionOf v s).bytes k = x) (ho : o = 128 + k := by norm_num) :
    fieldAt (headerBytes v s) o = x := by
  rw [headerBytes_eq, if_pos hext, fieldAt_append_right _ _ (by rwa [ContainerHeader.length_bytes]), h]

/-- The reserved bytes a build writes are zero (R88). -/
theorem headerBytes_reserved_zero (v : Variant) (s : State) {k : Nat} (hk : 32 ≤ k ∧ k < 76 ∨ 112 ≤ k ∧ k < 128) :
    (headerBytes v s)[k]? = some 0 := by
  rw [headerBytes_eq, List.getElem?_append_left (by simp; omega), ContainerHeader.reserved_zero _ hk]

/-- A normalised layer count is kept by a 32-bit field (R88). -/
theorem toNat_ofNat_norm (w : Word) : (BitVec.ofNat 32 (norm (sint32 w))).toNat = norm (sint32 w) := by
  have hlt : norm (sint32 w) < 2 ^ 31 := ({ State.reset with layers := w } : State).layerCount_lt
  rw [BitVec.toNat_ofNat, Nat.mod_eq_of_lt (by omega)]

/-- Settles O28: every test of R89 passes, and the bytes are those of the header and the extension block, field by
field. -/
theorem hdrBuildWritesTheHeader : Obligations.HdrBuildWritesTheHeader := by
  intro v s hv hoperands hresolves hpitch hext hplain
  have hfits := (fits_headerBytes_iff v s).2 ⟨fun h => (hext h).1, fun h => (hplain h).1⟩
  have hpitchField : (BitVec.ofNat 32 (buildPitch s v)).toNat = buildPitch s v := by
    rw [BitVec.toNat_ofNat, Nat.mod_eq_of_lt hpitch]
  have hlength := length_headerBytes v s
  obtain ⟨h0, h4, h8, h12, h16, h20, h24, h28, h76, h80, h84, h88, h92, h96, h100, h104, h108⟩ :=
    (headerOf v s).fields
  obtain ⟨x0, x4, x8, x12, x16⟩ := (extensionOf v s).fields
  refine ⟨built v s, headerBytes v s, hdrBuild_completes hv hoperands hresolves hpitch hfits, toNat_ofNat_norm s.layers,
    hpitchField, fieldAt_headerBytes h0, fieldAt_headerBytes h4, fieldAt_headerBytes h8, fieldAt_headerBytes h12,
    fieldAt_headerBytes h16, fieldAt_headerBytes (h20.trans hpitchField), fieldAt_headerBytes h24,
    fieldAt_headerBytes h28, fun k h₁ h₂ => headerBytes_reserved_zero v s (.inl ⟨h₁, h₂⟩), fieldAt_headerBytes h76, ?_,
    fieldAt_headerBytes h108, fun k h₁ h₂ => headerBytes_reserved_zero v s (.inr ⟨h₁, h₂⟩), fun hn => ?_, fun hn => ?_⟩
  · rintro pf rfl
    exact ⟨fieldAt_headerBytes h80, fieldAt_headerBytes h88, fieldAt_headerBytes h92, fieldAt_headerBytes h96,
      fieldAt_headerBytes h100, fieldAt_headerBytes h104⟩
  · have hfourCC : (headerOf v s).fourCC = (s.cfg.catalog.codes v).fourCC := if_neg hn
    exact ⟨hlength.trans (if_neg hn), fieldAt_headerBytes (hfourCC ▸ h84)⟩
  · have hfourCC : (headerOf v s).fourCC = s.cfg.extSentinel := if_pos hn
    exact ⟨hlength.trans (if_pos hn), fieldAt_headerBytes (hfourCC ▸ h84), fieldAt_headerBytes_extension hn x0,
      fieldAt_headerBytes_extension hn x4, fieldAt_headerBytes_extension hn x8,
      fieldAt_headerBytes_extension hn (x12.trans (toNat_ofNat_norm s.layers)), fieldAt_headerBytes_extension hn x16⟩

end Sys2Proof.Machine
end

section
/-! SUPPORT. `HDR.PARSE` in the terms of its rules: what it answers, and what it reads (41_header.md R92, R93, R95). -/

namespace Sys2Proof.Machine

/-! ### What a parse answers -/

/-- The end of a parse of a header with its extension block (R92). -/
def parseExtended (s : State) : Except Exc State :=
  (variantOfDxgi s.cfg (s.u32 128)).elim (.error .unsupportedFormat) fun v =>
    .ok (parsed s v (norm (sint32 (s.u32 140))) extendedLength)

/-- The end of a parse of a header without an extension block (R92). -/
def parsePlain (s : State) : Except Exc State :=
  (variantOfFourCC s.cfg (s.u32 84)).elim (.error .unsupportedFormat) fun v => .ok (parsed s v 1 headerLength)

/-- `HDR.PARSE`: the exceptions in the order of R92, else one of the two ends. -/
theorem hdrParse_eq (s : State) : hdrParse s =
    if ¬ fits s.inlen.toNat s.cfg.ibufCap then .error .capacityFault
    else if s.inlen.toNat < 128 then .error .lengthFault
    else if ¬ HeaderFixedFields s then .error .headerFault
    else if inputField s 84 = s.cfg.extSentinel.toNat then
      if s.inlen.toNat < 148 then .error .lengthFault else parseExtended s
    else parsePlain s := by
  have hcapacity : exceeds s.inlen.toNat s.cfg.ibufCap = true ↔ ¬ fits s.inlen.toNat s.cfg.ibufCap := by
    rw [← exceeds_eq_false_iff, Bool.not_eq_false]
  simp only [hdrParse, State.inputLength_eq, hcapacity, fixedFields_iff, State.u32_eq_iff]
  refine if_congr .rfl rfl (if_congr .rfl rfl (if_congr .rfl rfl (if_congr .rfl (if_congr .rfl rfl ?_) ?_)))
  · unfold parseExtended
    cases variantOfDxgi s.cfg (s.u32 128) <;> rfl
  · unfold parsePlain
    cases variantOfFourCC s.cfg (s.u32 84) <;> rfl

section Checked

/-! After the checks that both header lengths share. -/

variable {s : State} (hfits : fits s.inlen.toNat s.cfg.ibufCap) (hfixed : HeaderFixedFields s)
include hfits hfixed

/-- Without the sentinel, a parse ends as one of a header without an extension block. -/
theorem hdrParse_plain (hlen : 128 ≤ s.inlen.toNat) (hsentinel : inputField s 84 ≠ s.cfg.extSentinel.toNat) :
    hdrParse s = parsePlain s := by
  rw [hdrParse_eq, if_neg (not_not.2 hfits), if_neg (not_lt.2 hlen), if_neg (not_not.2 hfixed), if_neg hsentinel]

/-- With the sentinel, a parse ends as one of a header with its extension block. -/
theorem hdrParse_extended (hlen : 148 ≤ s.inlen.toNat) (hsentinel : inputField s 84 = s.cfg.extSentinel.toNat) :
    hdrParse s = parseExtended s := by
  rw [hdrParse_eq, if_neg (not_not.2 hfits), if_neg (by omega), if_neg (not_not.2 hfixed), if_pos hsentinel,
    if_neg (not_lt.2 hlen)]

end Checked

/-- The FourCC at an offset is no variant's, in the terms of the input field (40_catalog.md R73). -/
theorem variantOfFourCC_u32_eq_none_iff (s : State) (o : Nat) : variantOfFourCC s.cfg (s.u32 o) = none ↔
    inputField s o = 0 ∨ ∀ v, v ≠ .invalid → (s.cfg.catalog.codes v).fourCC.toNat ≠ inputField s o := by
  simp only [variantOfFourCC_eq_none_iff, ne_eq, BitVec.toNat_eq, State.toNat_u32]
  rfl

/-- The DXGI code at an offset is no variant's, in the terms of the input field (40_catalog.md R73). -/
theorem variantOfDxgi_u32_eq_none_iff (s : State) (o : Nat) : variantOfDxgi s.cfg (s.u32 o) = none ↔
    inputField s o = 0 ∨ ∀ v, v ≠ .invalid → (s.cfg.catalog.codes v).dxgi.toNat ≠ inputField s o := by
  simp only [variantOfDxgi_eq_none_iff, ne_eq, BitVec.toNat_eq, State.toNat_u32]
  rfl

/-- Settles O31: each exception is a test of R92 that fails after the earlier ones passed. -/
theorem hdrParseExceptionsInOrder : Obligations.HdrParseExceptionsInOrder := by
  intro s
  have raises {e : Exc} (h : hdrParse s = .error e) : Raises .hdrParse s e := raises_of_run (c := .hdrParse) h
  refine ⟨fun hfits => ?_, fun hfits hlen => ?_, fun hfits hlen hfixed => ?_,
    fun hfits hlen hfixed hsentinel hext => ?_, fun hfits hlen hfixed hsentinel hcode => ?_,
    fun hfits hlen hfixed hsentinel hcode => ?_⟩
  · exact raises (by rw [hdrParse_eq, if_pos hfits])
  · exact raises (by rw [hdrParse_eq, if_neg (not_not.2 hfits), if_pos hlen])
  · exact raises (by rw [hdrParse_eq, if_neg (not_not.2 hfits), if_neg (not_lt.2 hlen), if_pos hfixed])
  · exact raises (by
      rw [hdrParse_eq, if_neg (not_not.2 hfits), if_neg (not_lt.2 hlen), if_neg (not_not.2 hfixed), if_pos hsentinel,
        if_pos hext])
  · exact raises (by
      rw [hdrParse_extended hfits hfixed hlen hsentinel, parseExtended, (variantOfDxgi_u32_eq_none_iff s 128).2 hcode,
        Option.elim_none])
  · exact raises (by
      rw [hdrParse_plain hfits hfixed hlen hsentinel, parsePlain, (variantOfFourCC_u32_eq_none_iff s 84).2 hcode,
        Option.elim_none])

/-- A FourCC that is a variant's own is parsed as that variant (R92; 40_catalog.md R74 (a)). -/
theorem parsePlain_of_code {s : State} {v : Variant} (hdistinct : s.cfg.FourCCsDistinct) (hv : v ≠ .invalid)
    (hcode : s.u32 84 = (s.cfg.catalog.codes v).fourCC) (h0 : (s.cfg.catalog.codes v).fourCC ≠ 0) :
    parsePlain s = .ok (parsed s v 1 headerLength) := by
  rw [parsePlain, hcode, variantOfFourCC_codes hdistinct hv h0, Option.elim_some]

/-- A DXGI code that is a variant's own is parsed as that variant (R92; 40_catalog.md R74 (c)). -/
theorem parseExtended_of_code {s : State} {v : Variant} (hdistinct : s.cfg.DxgisDistinct) (hv : v ≠ .invalid)
    (hcode : s.u32 128 = (s.cfg.catalog.codes v).dxgi) (h0 : (s.cfg.catalog.codes v).dxgi ≠ 0) :
    parseExtended s = .ok (parsed s v (norm (sint32 (s.u32 140))) extendedLength) := by
  rw [parseExtended, hcode, variantOfDxgi_codes hdistinct hv h0, Option.elim_some]

/-- A parse that answers its success state completes. -/
theorem parsed_completes {s : State} {v : Variant} {layers hlen : Nat} (h : hdrParse s = .ok (parsed s v layers hlen)) :
    Completes .hdrParse s (parsed s v layers hlen) [] resultRegs :=
  completes_of_run (c := .hdrParse) h (parsed_finishedWith s v layers hlen)

/-- Settles O30: the code read is a variant's own, so the parse ends with that variant. -/
theorem hdrParseReadsTheHeader : Obligations.HdrParseReadsTheHeader := by
  intro v s hfourCCs hdxgis hv hfits hfixed
  refine ⟨fun hlen hsentinel h0 hcode => ?_, fun hlen hsentinel h0 hcode => ?_⟩
  · have hparse := (hdrParse_plain hfits hfixed hlen hsentinel).trans
      (parsePlain_of_code hfourCCs hv ((s.u32_eq_iff 84 _).2 hcode.symm) fun hz => h0 (hcode ▸ hz ▸ rfl))
    exact ⟨_, parsed_completes hparse, toNat_variantWord v, s.toNat_u32 16, s.toNat_u32 12, rfl, s.toNat_u32 28, rfl⟩
  · have hparse := (hdrParse_extended hfits hfixed hlen hsentinel).trans
      (parseExtended_of_code hdxgis hv ((s.u32_eq_iff 128 _).2 hcode.symm) fun hz => h0 (hcode ▸ hz ▸ rfl))
    have hlayers : (BitVec.ofNat 32 (norm (sint32 (s.u32 140)))).toNat =
        if inputField s 140 = 0 ∨ 2 ^ 31 ≤ inputField s 140 then 1 else inputField s 140 := by
      rw [toNat_ofNat_norm, norm_sint32, State.toNat_u32]
    exact ⟨_, parsed_completes hparse, toNat_variantWord v, s.toNat_u32 16, s.toNat_u32 12, hlayers, s.toNat_u32 28,
      rfl⟩

/-! ### What a parse reads -/

/-- The offsets of the nine fields a parse reads (R92, R93). -/
def parseFields : List Nat := [0, 4, 12, 16, 28, 76, 84, 128, 140]

/-- A parse answers the same result wherever the nine fields it reads are the same (R93). -/
theorem sameResult_hdrParse_of_fields {s₁ s₂ : State} (hcfg : s₁.cfg = s₂.cfg) (hinlen : s₁.inlen = s₂.inlen)
    (hfield : ∀ o ∈ parseFields, s₁.u32 o = s₂.u32 o) :
    SameResult resultRegs (hdrParse s₁) (hdrParse s₂) := by
  simp only [parseFields, List.forall_mem_cons] at hfield
  obtain ⟨h0, h4, hheight, hwidth, hmips, h76, h84, h128, h140, -⟩ := hfield
  simp only [hdrParse, State.inputLength, hinlen, hcfg, h0, h4, h76, h84, h128, h140]
  refine .raise_if fun _ => .raise_if fun _ => .raise_if fun _ => .ite (fun _ => .raise_if fun _ => ?_) fun _ => ?_
  · cases variantOfDxgi s₂.cfg (s₂.u32 128) with
    | none => exact .error _
    | some v => exact sameResult_parsed v _ _ hwidth hheight hmips
  · cases variantOfFourCC s₂.cfg (s₂.u32 84) with
    | none => exact .error _
    | some v => exact sameResult_parsed v _ _ hwidth hheight hmips

/-- An instruction that does not end in `DONE` leaves in each result register the draw of its number
(60_exceptions.md R150). -/
theorem exec_result_reg_of_not_done {i : Instr} {s t : State} (h : exec i s = .next t)
    (hdone : statusState t.status ≠ stateDone) {r : Reg} (hr : r ∈ resultRegs) :
    t.reg r = Config.freeResult s.draws (regNumber r) := by
  rcases exec_cases i s with ⟨u, out, hu, hf⟩ | ⟨e, hu⟩ <;> rw [hu] at h <;> cases h
  · exact absurd hf.succeeds.state_done hdone
  · exact s.raise_reg_of_mem_resultRegs e hr

/-- Settles O32: the parses have the same result, and after an exception the result registers are draws of equal
counters. -/
theorem hdrParseIgnoresTheFieldsItDoesNotRead : Obligations.HdrParseIgnoresTheFieldsItDoesNotRead := by
  intro s₁ s₂ t₁ t₂ hcfg hinlen hdraws hbytes h₁ h₂
  have hfield : ∀ o ∈ parseFields, s₁.u32 o = s₂.u32 o := fun o ho => by
    have hbyte := hbytes o ho
    unfold State.u32
    rw [hbyte 1 (by omega), hbyte 2 (by omega), hbyte 3 (by omega), show s₁.ibufByte o = _ from hbyte 0 (by omega)]
    rfl
  have hsame : SameResult Command.hdrParse.writes (hdrParse s₁) (hdrParse s₂) :=
    sameResult_hdrParse_of_fields hcfg hinlen hfield
  obtain ⟨u, hu, hstate, herr, -, -, hregs⟩ := exec_of_sameResult (c := .hdrParse) hsame h₁
  obtain rfl : u = t₂ := Host.Outcome.next.inj (hu.symm.trans h₂)
  refine ⟨hstate.symm, herr.symm, fun r hr => ?_⟩
  by_cases hdone : statusState t₁.status = stateDone
  · exact (hregs hdone r hr).symm
  · rw [exec_result_reg_of_not_done h₁ hdone hr, exec_result_reg_of_not_done h₂ (hstate ▸ hdone) hr, hdraws]

end Sys2Proof.Machine
end

section
/-! SUPPORT. The round trip of 41_header.md R94: a parse given the bytes a build wrote. -/

namespace Sys2Proof.Machine

/-- An instruction that ended in `DONE` is its operation's success. -/
theorem run_ok_of_done {c : Command} {s t : State} (h : exec c.instr s = .next t)
    (hdone : statusState t.status = stateDone) : Command.run c s = .ok t := by
  rw [exec_instr] at h
  rcases settle_eq_next s (Command.run c s) with ⟨u, hrun, hu⟩ | ⟨e, -, hu⟩ <;> rw [hu] at h <;> cases h
  · exact hrun
  · rw [(s.raise_raised e).state_error] at hdone
    exact absurd hdone (by decide)

/-- A build that ended in `DONE` passed the tests of R89 and left its success state. -/
theorem eq_built_of_done {v : Variant} {s t : State} (hv : v ≠ .invalid)
    (h : exec (Command.hdrBuild v).instr s = .next t) (hdone : statusState t.status = stateDone) :
    t = built v s ∧ BuildResolves s v := by
  have hrun : hdrBuild v s = .ok t := run_ok_of_done h hdone
  rw [hdrBuild_eq hv] at hrun
  split_ifs at hrun with hoperands hresolves hpitch hfits
  exact ⟨(Except.ok.inj hrun).symm, hresolves⟩

/-- The input of `p` is what a build in `s` writes, under the same configuration. -/
structure HoldsHeader (v : Variant) (s p : State) : Prop where
  cfg : p.cfg = s.cfg
  input_fits : fits p.inlen.toNat p.cfg.ibufCap
  length : p.inlen.toNat = (headerBytes v s).length
  bytes : ∀ a, a < (headerBytes v s).length → p.ibuf.byte? a = (headerBytes v s)[a]?

/-- The fields of the input are those of the bytes built. -/
theorem HoldsHeader.inputField_eq {v : Variant} {s p : State} (h : HoldsHeader v s p) {o x : Nat}
    (hx : fieldAt (headerBytes v s) o = x) (ho : o + 4 ≤ (headerBytes v s).length) : inputField p o = x := by
  have hbyte : ∀ a, a < (headerBytes v s).length → p.ibufByte a = (headerBytes v s).getD a 0 := fun a ha => by
    simp [State.ibufByte, h.bytes a ha, List.getElem?_eq_getElem ha]
  rw [← hx, inputField, fieldAt, hbyte o (by omega), hbyte (o + 1) (by omega), hbyte (o + 2) (by omega),
    hbyte (o + 3) (by omega)]

/-- Every build writes the 128 bytes of a header (30_encoding.md R51). -/
theorem le_length_headerBytes (v : Variant) (s : State) : 128 ≤ (headerBytes v s).length := by
  rw [length_headerBytes]
  split_ifs <;> norm_num

/-- A field of the first 128 bytes of the input is the header's. -/
theorem HoldsHeader.header_field {v : Variant} {s p : State} (h : HoldsHeader v s p) {o x : Nat}
    (hx : fieldAt (headerOf v s).bytes o = x) (ho : o + 4 ≤ 128 := by norm_num) : inputField p o = x :=
  h.inputField_eq (fieldAt_headerBytes hx ho) (ho.trans (le_length_headerBytes v s))

/-- A field after the first 128 bytes of the input is the extension block's. -/
theorem HoldsHeader.extension_field {v : Variant} {s p : State} (h : HoldsHeader v s p) (hext : NeedsExt s v)
    {o k x : Nat}
    (hx : fieldAt (extensionOf v s).bytes k = x) (ho : o = 128 + k := by norm_num) (hk : k + 4 ≤ 20 := by norm_num) :
    inputField p o = x :=
  h.inputField_eq (fieldAt_headerBytes_extension hext hx ho) (by rw [length_headerBytes, if_pos hext]; omega)

/-- What a build wrote passes the parse's checks of fixed fields. -/
theorem HoldsHeader.fixedFields {v : Variant} {s p : State} (h : HoldsHeader v s p) : HeaderFixedFields p := by
  obtain ⟨h0, h4, -, -, -, -, -, -, h76, -⟩ := (headerOf v s).fields
  exact ⟨h.header_field h0, h.header_field h4, h.header_field h76⟩

/-- The `fourCC` field a build wrote (R86). -/
theorem HoldsHeader.fourCC_field {v : Variant} {s p : State} (h : HoldsHeader v s p) :
    inputField p 84 = (headerOf v s).fourCC.toNat := by
  obtain ⟨-, -, -, -, -, -, -, -, -, -, h84, -⟩ := (headerOf v s).fields
  exact h.header_field h84

/-- What a build wrote without an extension block is parsed as its variant with one layer: its `fourCC` field is the
variant's own code, which is not the sentinel. -/
theorem HoldsHeader.parse_plain {v : Variant} {s p : State} (h : HoldsHeader v s p) (hv : v ≠ .invalid)
    (hdistinct : s.cfg.FourCCsDistinct) (hsentinel : s.cfg.SentinelIsNoFourCC) (hext : ¬ NeedsExt s v) :
    hdrParse p = .ok (parsed p v s.layerCount (headerBytes v s).length) := by
  obtain ⟨hsingle, -, h0⟩ : s.layerCount ≤ 1 ∧ v ∉ s.cfg.alwaysExt ∧ (s.cfg.catalog.codes v).fourCC ≠ 0 := by
    simpa only [NeedsExt, not_or, not_lt] using hext
  have hlayers : s.layerCount = 1 := le_antisymm hsingle (one_le_norm _)
  have hlength : (headerBytes v s).length = headerLength := (length_headerBytes v s).trans (if_neg hext)
  have hcode : inputField p 84 = (s.cfg.catalog.codes v).fourCC.toNat :=
    h.fourCC_field.trans (congrArg BitVec.toNat (if_neg hext))
  have hnotSentinel : inputField p 84 ≠ s.cfg.extSentinel.toNat := fun heq =>
    hsentinel v (mem_real.2 hv) h0 (BitVec.eq_of_toNat_eq (hcode.symm.trans heq))
  rw [hlayers, hlength]
  rw [← h.cfg] at hdistinct h0 hcode hnotSentinel
  exact (hdrParse_plain h.input_fits h.fixedFields (h.length.trans hlength).ge hnotSentinel).trans
    (parsePlain_of_code hdistinct hv ((p.u32_eq_iff 84 _).2 hcode) h0)

/-- What a build wrote with an extension block is parsed as its variant with its layer count: both stand in the
block. -/
theorem HoldsHeader.parse_extended {v : Variant} {s p : State} (h : HoldsHeader v s p) (hv : v ≠ .invalid)
    (hdistinct : s.cfg.DxgisDistinct) (hresolves : BuildResolves s v) (hext : NeedsExt s v) :
    hdrParse p = .ok (parsed p v s.layerCount (headerBytes v s).length) := by
  obtain ⟨hdxgi, -, -, harray, -⟩ := (extensionOf v s).fields
  have h0 : (s.cfg.catalog.codes v).dxgi ≠ 0 := hresolves.2 hext
  have hlength : (headerBytes v s).length = extendedLength := (length_headerBytes v s).trans (if_pos hext)
  have hsentinel : inputField p 84 = s.cfg.extSentinel.toNat :=
    h.fourCC_field.trans (congrArg BitVec.toNat (if_pos hext))
  have hcode : inputField p 128 = (s.cfg.catalog.codes v).dxgi.toNat := h.extension_field hext hdxgi
  have hlayers : norm (sint32 (p.u32 140)) = s.layerCount := by
    have hfield := h.extension_field hext (harray.trans (toNat_ofNat_norm s.layers)) (o := 140)
    have hpos : 1 ≤ s.layerCount := one_le_norm _
    have hlt := s.layerCount_lt
    rw [norm_sint32, State.toNat_u32, hfield]
    exact if_neg (by unfold State.layerCount at hpos hlt; omega)
  rw [hlength, ← hlayers]
  rw [← h.cfg] at hdistinct h0 hcode hsentinel
  exact (hdrParse_extended h.input_fits h.fixedFields (h.length.trans hlength).ge hsentinel).trans
    (parseExtended_of_code hdistinct hv ((p.u32_eq_iff 128 _).2 hcode) h0)

/-- Settles O33: what the build wrote is parsed, in either form, as its variant with its layer count, and the width, the
height and the mip count are fields of the header. -/
theorem buildThenParseRecoversTheOperands : Obligations.BuildThenParseRecoversTheOperands := by
  intro v s t p hfourCCs hsentinel hdxgis _ hv hexec hdone hcfg hinlen hinput hfits
  obtain ⟨rfl, hresolves⟩ := eq_built_of_done hv hexec hdone
  have houtlen : (built v s).outlen.toNat = (headerBytes v s).length := by
    rw [built, State.finish_outlen, BitVec.toNat_ofNat, Nat.mod_eq_of_lt (headerBytes_length_lt v s)]
  have hholds : HoldsHeader v s p := ⟨hcfg, hfits, hinlen ▸ houtlen,
    fun a ha => (hinput a (houtlen ▸ ha)).trans (Memory.byte?_ofBytes_zero _ a)⟩
  have hparse : hdrParse p = .ok (parsed p v s.layerCount (headerBytes v s).length) := by
    by_cases hext : NeedsExt s v
    · exact hholds.parse_extended hv hdxgis hresolves hext
    · exact hholds.parse_plain hv hfourCCs hsentinel hext
  obtain ⟨-, -, -, hheight, hwidth, -, -, hmips, -⟩ := (headerOf v s).fields
  exact ⟨_, parsed_completes hparse, toNat_variantWord v, (p.u32_eq_iff 16 _).2 (hholds.header_field hwidth),
    (p.u32_eq_iff 12 _).2 (hholds.header_field hheight), toNat_ofNat_norm s.layers,
    (p.u32_eq_iff 28 _).2 (hholds.header_field hmips), rfl⟩

end Sys2Proof.Machine
end

section
/-! SUPPORT. The level sequence in closed form: its depth, its sizes, its last level (42_mip.md R100, R101, R104). -/

namespace Sys2Proof.Machine

/-! ### Length, sizes and end of the sequence -/

/-- The levels in closed form (R100). -/
theorem mipLevels_eq (v : Variant) {w h : Nat} (hw : 1 ≤ w) (hh : 1 ≤ h) :
    mipLevels v w h = (List.range (depth w h)).map fun k =>
      ⟨max 1 (w / 2 ^ k), max 1 (h / 2 ^ k), levelBytes v w h k⟩ :=
  levelLoop_eq v _ w h hw hh le_rfl

/-- The sequence has as many sizes as R101 says. -/
theorem length_levelSizes (v : Variant) {w h : Nat} (hw : 1 ≤ w) (hh : 1 ≤ h) :
    (levelSizes v w h).length = depth w h := by
  rw [levelSizes_eq v hw hh, List.length_map, List.length_range]

/-- The size at a position of the sequence (R100). -/
theorem levelSizes_getElem? (v : Variant) {w h k : Nat} (hw : 1 ≤ w) (hh : 1 ≤ h) (hk : k < depth w h) :
    (levelSizes v w h)[k]? = some (levelBytes v w h k) := by
  rw [levelSizes_eq v hw hh, List.getElem?_map, List.getElem?_range hk, Option.map_some]

/-- The first size, as the operations look it up (R102). -/
theorem headD_levelSizes (v : Variant) {w h : Nat} (hw : 1 ≤ w) (hh : 1 ≤ h) :
    (levelSizes v w h).headD 0 = levelBytes v w h 0 := by
  rw [List.headD_eq_head?_getD, List.head?_eq_getElem?, levelSizes_getElem? v hw hh (Nat.succ_pos _), Option.getD_some]

/-- A dimension halved as often as the larger one takes to reach 1 is 1 as well. -/
theorem max_one_div_two_pow_log2 {x m : Nat} (hxm : x ≤ m) : max 1 (x / 2 ^ Nat.log2 m) = 1 := by
  have hlt : x / 2 ^ Nat.log2 m < 2 := by
    rw [Nat.div_lt_iff_lt_mul (by positivity), ← pow_succ']
    exact hxm.trans_lt Nat.lt_log2_self
  omega

/-- The last level is 1 by 1 (R100). -/
theorem mipLevels_getLast? (v : Variant) {w h : Nat} (hw : 1 ≤ w) (hh : 1 ≤ h) :
    (mipLevels v w h).getLast? = some ⟨1, 1, levelBytes v w h (Nat.log2 (max w h))⟩ := by
  rw [mipLevels_eq v hw hh, depth, List.range_succ, List.map_append, List.map_singleton, List.getLast?_concat,
    max_one_div_two_pow_log2 (le_max_left w h), max_one_div_two_pow_log2 (le_max_right w h)]

/-- A pyramid of dimensions below 2^31 has at most 31 levels (R101). -/
theorem depth_le {w h : Nat} (hw : w < 2 ^ 31) (hh : h < 2 ^ 31) : depth w h ≤ 31 := by
  rcases Nat.eq_zero_or_pos (max w h) with h0 | hpos
  · simp [depth, h0]
  · exact (Nat.log2_lt hpos.ne').2 (max_lt hw hh)

/-- Settles O34: the sequence is the image of the levels below the depth, and the last of them halves the larger dimension
to 1. -/
theorem levelSequence : Obligations.LevelSequence := fun v _ _ hw hh =>
  ⟨length_levelSizes v hw hh, fun _ hk => levelSizes_getElem? v hw hh hk, ⟨_, mipLevels_getLast? v hw hh, rfl, rfl⟩,
    depth_le⟩

/-! ### When the division is exact, and the largest level -/

/-- The bits per pixel are whole bytes for every variant but the two 4-bit block formats (40_catalog.md R71). -/
theorem eight_dvd_bitsPerPixel {v : Variant} (hdxt1 : v ≠ .dxt1) (hbc4 : v ≠ .bc4) : 8 ∣ bitsPerPixel v := by
  cases v with
  | dxt1 | bc4 => contradiction
  | _ => decide

/-- Bits at 4 a pixel are whole bytes exactly for an even number of pixels. -/
theorem eight_dvd_mul_mul_four_iff (a b : Nat) : 8 ∣ a * b * 4 ↔ ¬ (a % 2 = 1 ∧ b % 2 = 1) := by
  rw [show 8 = 2 * 4 from rfl, Nat.mul_dvd_mul_iff_right (by norm_num), Nat.prime_two.dvd_mul]
  omega

/-- No level is larger than the first (R104). -/
theorem levelBytes_le_first (v : Variant) (w h k : Nat) : levelBytes v w h k ≤ levelBytes v w h 0 := by
  unfold levelBytes
  gcongr <;> simp

/-- A 256-pixel dimension, halved and raised to the tile of 4, is a multiple of 4. -/
theorem four_dvd_tile_of_256 (k : Nat) : 4 ∣ max 4 (max 1 (256 / 2 ^ k)) := by
  rcases le_or_gt k 6 with hk | hk
  · interval_cases k <;> decide
  · have hsmall : 256 / 2 ^ k ≤ 256 / 2 ^ 6 := Nat.div_le_div_left (Nat.pow_le_pow_right two_pos hk.le) (by positivity)
    rw [max_eq_left (by omega)]

/-- At 4 bits a pixel and tile-raised dimensions that are multiples of 4, a level is whole 8-byte blocks. -/
theorem eight_dvd_blocks {t : Nat} (ht : 4 ∣ t) : 8 ∣ t * t * 4 / 8 := by
  obtain ⟨m, rfl⟩ := ht
  exact ⟨m * m, by rw [show 4 * m * (4 * m) * 4 = 8 * (8 * (m * m)) by ring, Nat.mul_div_cancel_left _ (by norm_num)]⟩

/-- Settles O35: the bits per pixel decide where the division is exact, halving never enlarges a level, and at 256 by 256
the tile-raised dimensions stay multiples of the tile. -/
theorem levelSizesExactnessAndOrder : Obligations.LevelSizesExactnessAndOrder := by
  refine fun v w h k _ _ _ => ⟨fun hdxt1 hbc4 => ?_, ?_, levelBytes_le_first v w h k, ?_⟩
  · exact (eight_dvd_bitsPerPixel hdxt1 hbc4).mul_left _
  · rintro (rfl | rfl) <;> exact eight_dvd_mul_mul_four_iff _ _
  · rintro (rfl | rfl) <;> exact eight_dvd_blocks (four_dvd_tile_of_256 k)

end Sys2Proof.Machine
end

section
/-! SUPPORT. `MIP.SIZES` and `MIP.TAKE` in the terms of their rules: what they answer, and the words they write (42_mip.md
R102, R103). -/

namespace Sys2Proof.Machine

/-- The dimensions are in the source's range (R102). -/
abbrev DimsPositive (s : State) : Prop := 0 < s.width.toInt ∧ 0 < s.height.toInt

/-- The depth of the pyramid of a state's dimensions (R101). -/
abbrev State.levelCount (s : State) : Nat := depth s.width.toInt.toNat s.height.toInt.toNat

/-- The byte length of level `k` of the pyramid of a state's dimensions (R100). -/
abbrev State.levelLength (s : State) (v : Variant) (k : Nat) : Nat :=
  levelBytes v s.width.toInt.toNat s.height.toInt.toNat k

/-- The level sizes of a state's dimensions (R100). -/
abbrev State.pyramid (s : State) (v : Variant) : List Nat := levelSizes v s.width.toInt.toNat s.height.toInt.toNat

/-- The words of the first `n` level sizes (30_encoding.md R62). -/
def State.levelWords (s : State) (v : Variant) (n : Nat) : List Byte := sizeWords ((s.pyramid v).take n)

/-- The success state that writes `n` levels. -/
def levelsWritten (v : Variant) (n : Nat) (s : State) : State :=
  { s.finish (s.levelWords v n) with rmips := BitVec.ofNat 32 s.levelCount }

/-- The end that both operations share, after their own tests: the first size against the field, then `n` levels
written. -/
def writeLevels (v : Variant) (n : Nat) (s : State) : Except Exc State :=
  if 2 ^ 32 ≤ (s.pyramid v).headD 0 then .error .fieldOverflow
  else do
    let t ← s.complete (s.levelWords v n)
    .ok { t with rmips := BitVec.ofNat 32 (s.pyramid v).length }

/-! ### The operations before the shared end -/

/-- The test of the dimensions, as the operations write it (R102). -/
theorem badDims_iff (s : State) : (s.widthOp ≤ 0 ∨ s.heightOp ≤ 0) ↔ ¬ DimsPositive s := by
  rw [State.widthOp_eq, State.heightOp_eq]
  omega

/-- `MIP.SIZES` of a variant but `INVALID`: the test of the dimensions, then the write of every level (R102). -/
theorem mipSizes_eq {v : Variant} (hv : v ≠ .invalid) (s : State) : mipSizes v s =
    if ¬ DimsPositive s then .error .operandFault else writeLevels v (s.pyramid v).length s := by
  simp only [mipSizes, if_neg hv, badDims_iff, writeLevels, State.levelWords, List.take_length]
  rfl

/-- `MIP.TAKE` of a variant but `INVALID`: the tests of the dimensions and of the count, then the write of that many
levels (R103). -/
theorem mipTake_eq {v : Variant} (hv : v ≠ .invalid) (s : State) : mipTake v s =
    if ¬ DimsPositive s ∨ s.mips.toInt < 1 then .error .operandFault
    else if (s.pyramid v).length < s.mips.toInt.toNat then .error .mipCountExceedsCapacity
    else writeLevels v s.mips.toInt.toNat s := by
  simp only [mipTake, if_neg hv, ← or_assoc, badDims_iff]
  rfl

/-! ### The shared end -/

/-- A register's dimension is below 2^31, so no pyramid has more than 31 levels (R101). -/
theorem State.levelCount_le (s : State) : s.levelCount ≤ 31 := by
  have hw := s.width.toInt_lt
  have hh := s.height.toInt_lt
  exact depth_le (by omega) (by omega)

section
variable {v : Variant} {s : State} (hdims : DimsPositive s)
include hdims

/-- Positive dimensions as the numbers the closed forms of the sequence take. -/
theorem DimsPositive.one_le : 1 ≤ s.width.toInt.toNat ∧ 1 ≤ s.height.toInt.toNat := by
  omega

/-- The number of sizes both operations compute (R101). -/
theorem DimsPositive.length_pyramid : (s.pyramid v).length = s.levelCount :=
  length_levelSizes v hdims.one_le.1 hdims.one_le.2

/-- Four bytes a level (30_encoding.md R62). -/
theorem DimsPositive.length_levelWords {n : Nat} (hn : n ≤ s.levelCount) : (s.levelWords v n).length = 4 * n := by
  rw [State.levelWords, length_sizeWords, List.length_take, hdims.length_pyramid, min_eq_left hn]

/-- The word of a level is its size, if the first size fits a word: no level is larger (R104). -/
theorem DimsPositive.fieldAt_levelWords {n k : Nat} (hn : n ≤ s.levelCount) (hfirst : s.levelLength v 0 < 2 ^ 32)
    (hk : k < n) : fieldAt (s.levelWords v n) (4 * k) = s.levelLength v k := by
  have hlength : k < ((s.pyramid v).take n).length := by
    rw [List.length_take, hdims.length_pyramid]
    omega
  have hsize := levelSizes_getElem? v hdims.one_le.1 hdims.one_le.2 (hk.trans_le hn)
  rw [State.levelWords, fieldAt_sizeWords _ k hlength, List.getElem_take, (List.getElem?_eq_some_iff.1 hsize).2]
  exact Nat.mod_eq_of_lt ((levelBytes_le_first _ _ _ _).trans_lt hfirst)

/-- What the shared end answers: the exceptions in their order, else the success (R102). -/
theorem DimsPositive.writeLevels_eq {n : Nat} (hn : n ≤ s.levelCount) : writeLevels v n s =
    if 2 ^ 32 ≤ s.levelLength v 0 then .error .fieldOverflow
    else if ¬ fits (4 * n) s.cfg.obufCap then .error .capacityFault
    else .ok (levelsWritten v n s) := by
  have hlength := hdims.length_levelWords (v := v) hn
  have hcount := s.levelCount_le
  rw [writeLevels, headD_levelSizes v hdims.one_le.1 hdims.one_le.2, hdims.length_pyramid]
  refine if_congr .rfl rfl ?_
  split_ifs with hfits
  · rw [State.complete_of_fits ⟨by rwa [hlength], by omega⟩]
    rfl
  · rw [State.complete_of_not_fits (by rwa [hlength])]
    rfl

/-- A command that ends as the write of `n` levels completes with their sizes, if the first size and the output fit. -/
theorem DimsPositive.completes_of_writeLevels {c : Command} {n : Nat} (hrun : Command.run c s = writeLevels v n s)
    (hn : n ≤ s.levelCount) (hfirst : s.levelLength v 0 < 2 ^ 32) (hfits : OutputFits s.cfg (4 * n)) :
    ∃ t out, Completes c.instr s t out [.rmips] ∧ out.length = 4 * n ∧
      (∀ k, k < n → fieldAt out (4 * k) = s.levelLength v k) ∧ t.rmips.toNat = s.levelCount := by
  have hlength := hdims.length_levelWords (v := v) hn
  have hcount := s.levelCount_le
  have hok : Command.run c s = .ok (levelsWritten v n s) := by
    rw [hrun, hdims.writeLevels_eq hn, if_neg hfirst.not_ge, if_neg (not_not.2 hfits.1)]
  have hfinished : FinishedWith s (levelsWritten v n s) (s.levelWords v n) [.rmips] :=
    finishedWith_of_finish (hlength ▸ hfits.2) ((exceeds_eq_false_iff _ _).2 (hlength ▸ hfits.1))
      ⟨_, _, _, _, _, _, rfl, by simp⟩
  have hrmips : (BitVec.ofNat 32 s.levelCount).toNat = s.levelCount := by
    rw [BitVec.toNat_ofNat, Nat.mod_eq_of_lt (by omega)]
  exact ⟨_, _, completes_of_run hok hfinished, hlength, fun k hk => hdims.fieldAt_levelWords hn hfirst hk, hrmips⟩

/-- A command that ends as the write of levels overflows the field where the first size does. -/
theorem DimsPositive.raises_fieldOverflow {c : Command} {n : Nat} (hrun : Command.run c s = writeLevels v n s)
    (hn : n ≤ s.levelCount) (hfirst : 2 ^ 32 ≤ s.levelLength v 0) : Raises c.instr s .fieldOverflow :=
  raises_of_run (by rw [hrun, hdims.writeLevels_eq hn, if_pos hfirst])

/-- A command that ends as the write of levels faults where their words exceed the capacity. -/
theorem DimsPositive.raises_capacityFault {c : Command} {n : Nat} (hrun : Command.run c s = writeLevels v n s)
    (hn : n ≤ s.levelCount) (hfirst : s.levelLength v 0 < 2 ^ 32) (hfits : ¬ fits (4 * n) s.cfg.obufCap) :
    Raises c.instr s .capacityFault :=
  raises_of_run (by rw [hrun, hdims.writeLevels_eq hn, if_neg hfirst.not_ge, if_pos hfits])

/-- `MIP.SIZES` ends as the write of `levelCount` levels (R102). -/
theorem DimsPositive.run_mipSizes (hv : v ≠ .invalid) :
    Command.run (.mipSizes v) s = writeLevels v s.levelCount s := by
  rw [Command.run, mipSizes_eq hv, if_neg (not_not.2 hdims), hdims.length_pyramid]

/-- `MIP.TAKE` of a positive count tests it against `levelCount`, and ends as the write of that many levels (R103). -/
theorem DimsPositive.run_mipTake (hv : v ≠ .invalid) (hmips : 1 ≤ s.mips.toInt) : Command.run (.mipTake v) s =
    if s.levelCount < s.mips.toInt.toNat then .error .mipCountExceedsCapacity
    else writeLevels v s.mips.toInt.toNat s := by
  rw [Command.run, mipTake_eq hv, if_neg (by omega), hdims.length_pyramid]

end

/-- Settles O36: `MIP.SIZES` ends as the write of all the levels. -/
theorem mipSizesWritesEveryLevel : Obligations.MipSizesWritesEveryLevel := by
  intro v s hv hw hh _ _ hfirst hfits
  have hdims : DimsPositive s := ⟨hw, hh⟩
  exact hdims.completes_of_writeLevels (hdims.run_mipSizes hv) le_rfl hfirst hfits

/-- Settles O37: `MIP.TAKE` of a count in range ends as the write of that many levels. -/
theorem mipTakeWritesTheRequestedLevels : Obligations.MipTakeWritesTheRequestedLevels := by
  intro v s hv hw hh hmips _ _ _ hcount hfirst hfits
  have hdims : DimsPositive s := ⟨hw, hh⟩
  have hrun := (hdims.run_mipTake hv hmips).trans (if_neg hcount.not_gt)
  exact hdims.completes_of_writeLevels hrun hcount hfirst hfits

/-- Settles O38: the tests of the dimensions and of the count come first, and the last two exceptions are those of the
shared end. -/
theorem mipExceptionsInOrder : Obligations.MipExceptionsInOrder := by
  intro v s hv
  have sizes (hdims : DimsPositive s) := hdims.run_mipSizes hv
  have take (hdims : DimsPositive s) (hmips : 1 ≤ s.mips.toInt) := hdims.run_mipTake hv hmips
  refine ⟨fun hdims => ?_, fun (hdims : DimsPositive s) hfirst => ?_, fun (hdims : DimsPositive s) hfirst hfits => ?_,
    fun hoperands => ?_, fun hdims hmips hexcess => ?_, fun (hdims : DimsPositive s) hmips hcount hfirst => ?_,
    fun (hdims : DimsPositive s) hmips hcount hfirst hfits => ?_⟩
  · exact raises_of_run (c := .mipSizes v) ((mipSizes_eq hv s).trans (if_pos hdims))
  · exact hdims.raises_fieldOverflow (sizes hdims) le_rfl hfirst
  · exact hdims.raises_capacityFault (sizes hdims) le_rfl hfirst hfits
  · exact raises_of_run (c := .mipTake v) ((mipTake_eq hv s).trans (if_pos hoperands))
  · exact raises_of_run ((take hdims hmips).trans (if_pos hexcess))
  · exact hdims.raises_fieldOverflow ((take hdims hmips).trans (if_neg hcount.not_gt)) hcount hfirst
  · exact hdims.raises_capacityFault ((take hdims hmips).trans (if_neg hcount.not_gt)) hcount hfirst hfits

end Sys2Proof.Machine
end

section
/-! SUPPORT. The ends of `PIX.DECODE`: its tests in order, what stage 1 answers, and the decode that completes or raises after
it (43_pixel_decode.md R110 to R113, R121 to R132). -/

namespace Sys2Proof.Machine

/-- The length rule of a transforming decode (R111). -/
abbrev LengthRight (v : Variant) (s : State) : Prop :=
  v ∈ transformed → s.inlen.toNat = pixelCount s * bytesPerPixel v

/-- What stage 1 answers to the operands of a state (R110). -/
abbrev State.stage1Answer (s : State) (v : Variant) : Except Exc (List Byte) :=
  stage1 s.cfg s.draws (inputBytes s) s.width.toInt.toNat s.height.toInt.toNat s.layerCount v

/-- The variants with a length rule are the transforming ones (R111). -/
theorem hasLengthRule_iff {v : Variant} : hasLengthRule v = true ↔ v ∈ transformed := by
  cases v <;> decide

/-- The length rule, as the operation tests it (R111). -/
theorem wrongLength_iff (v : Variant) (s : State) :
    (hasLengthRule v = true ∧ s.inputLength ≠ s.widthOp.toNat * s.heightOp.toNat * s.layerCount * bytesPerPixel v) ↔
      ¬ LengthRight v s := by
  rw [LengthRight, Classical.not_imp, hasLengthRule_iff]
  rfl

/-- `PIX.DECODE` of a variant but `INVALID`: the tests of the dimensions, of the input against its capacity and of the
length rule, then the two stages (R110). -/
theorem pixDecode_eq {v : Variant} (hv : v ≠ .invalid) (s : State) : pixDecode v s =
    if ¬ DimsPositive s then .error .operandFault
    else if ¬ fits s.inlen.toNat s.cfg.ibufCap then .error .capacityFault
    else if ¬ LengthRight v s then .error .lengthFault
    else s.stage1Answer v >>= fun full => stage2 full s.layerCount s.tlayer.toInt >>= fun out => s.complete out := by
  simp only [pixDecode, if_neg hv, badDims_iff, wrongLength_iff, memRead_inputLength, ← exceeds_eq_false_iff,
    Bool.not_eq_false]
  rfl

/-- A state whose decode of `v` passes every test before stage 1 (R110, R111). -/
structure DecodeChecked (v : Variant) (s : State) : Prop where
  real : v ≠ .invalid
  dims : DimsPositive s
  input_fits : fits s.inlen.toNat s.cfg.ibufCap
  length_right : LengthRight v s

/-- A state ready for a decode passes the tests, if its length is right. -/
theorem DecodeReady.checked {v : Variant} {s : State} (hs : DecodeReady s) (hv : v ≠ .invalid)
    (hlen : LengthRight v s) : DecodeChecked v s :=
  ⟨hv, ⟨hs.width_pos, hs.height_pos⟩, hs.input_fits, hlen⟩

namespace DecodeChecked

variable {v : Variant} {s : State} {full : List Byte} (hc : DecodeChecked v s)
include hc

/-- Past its tests a decode is its two stages. -/
theorem run_eq : Command.run (.pixDecode v) s =
    (s.stage1Answer v >>= fun full => stage2 full s.layerCount s.tlayer.toInt >>= fun out => s.complete out) := by
  rw [Command.run, pixDecode_eq hc.real, if_neg (not_not.2 hc.dims), if_neg (not_not.2 hc.input_fits),
    if_neg (not_not.2 hc.length_right)]

/-- An exception of stage 1 is the decode's. -/
theorem raises_of_stage1 {e : Exc} (h1 : s.stage1Answer v = .error e) : Raises (Command.pixDecode v).instr s e :=
  raises_of_run (by rw [hc.run_eq, h1]; rfl)

/-- A target layer out of range raises `LAYER_RANGE_FAULT` once stage 1 has answered (R112). -/
theorem raises_layerRangeFault (h1 : s.stage1Answer v = .ok full) (ht : (s.layerCount : Int) ≤ s.tlayer.toInt) :
    Raises (Command.pixDecode v).instr s .layerRangeFault := by
  apply raises_of_run
  rw [hc.run_eq, h1]
  change (stage2 full s.layerCount s.tlayer.toInt >>= fun out => s.complete out) = _
  rw [stage2_of_le full ht]
  rfl

/-- With a target layer in range a decode ends with what stage 2 selects of stage 1's answer (R112). -/
theorem run_of_stage1 (h1 : s.stage1Answer v = .ok full) (ht : s.tlayer.toInt < s.layerCount) :
    Command.run (.pixDecode v) s = s.complete (layerSlice full s.layerCount s.tlayer.toInt) :=
  decode_of_stage1 hc.real ⟨hc.dims.1, hc.dims.2, hc.input_fits, ht⟩ (fun h => hc.length_right (hasLengthRule_iff.1 h)) h1

/-- A decode completes with what stage 2 selects of stage 1's answer, if that fits (R110). -/
theorem decodesTo (h1 : s.stage1Answer v = .ok full) (ht : s.tlayer.toInt < s.layerCount)
    (hfits : OutputFits s.cfg (sliceLength full.length s)) : DecodesTo v s full := by
  rw [← length_layerSlice full ht] at hfits
  exact ⟨_, completes_of_run ((hc.run_of_stage1 h1 ht).trans (State.complete_of_fits hfits)) (finishedWith_finish [] hfits)⟩

/-- An output beyond the capacity raises `CAPACITY_FAULT` (R110). -/
theorem raises_capacityFault (h1 : s.stage1Answer v = .ok full) (ht : s.tlayer.toInt < s.layerCount)
    (hfits : ¬ fits (sliceLength full.length s) s.cfg.obufCap) : Raises (Command.pixDecode v).instr s .capacityFault := by
  rw [← length_layerSlice full ht] at hfits
  exact raises_of_run ((hc.run_of_stage1 h1 ht).trans (State.complete_of_not_fits hfits))

end DecodeChecked

/-! ### Stage 1 by the kind of the variant -/

/-- A variant that is neither `INVALID`, block-compressed nor transforming passes its input through. -/
theorem mem_passedThrough {v : Variant} (hv : v ≠ .invalid) (hblock : v ∉ blockCompressed) (htrans : v ∉ transformed) :
    v ∈ passedThrough := by
  cases v <;> simp_all [passedThrough, blockCompressed, transformed]

/-- Stage 1 of a pass-through variant answers its input (R121 to R126). -/
theorem stage1_of_mem_passedThrough {v : Variant} (hv : v ∈ passedThrough) (cfg : Config) (draw w h layers : Nat)
    (input : List Byte) : stage1 cfg draw input w h layers v = .ok input := by
  fin_cases hv <;> rfl

/-- Stage 1 of a variant that asks no collaborator answers, by its kind, four bytes a pixel or the input (R111, R121 to
R126). -/
theorem stage1Answer_of_not_mem_blockCompressed {v : Variant} {s : State} (hv : v ≠ .invalid)
    (hblock : v ∉ blockCompressed) (hlen : LengthRight v s) : ∃ full, s.stage1Answer v = .ok full ∧
      full.length = if v ∈ transformed then 4 * pixelCount s else s.inlen.toNat := by
  by_cases ht : v ∈ transformed
  · rw [if_pos ht]
    exact stage1_of_mem_transformed ht _ _ _ _ _ ((length_inputBytes s).trans (hlen ht))
  · rw [if_neg ht]
    exact ⟨_, stage1_of_mem_passedThrough (mem_passedThrough hv hblock ht) _ _ _ _ _ _, length_inputBytes s⟩

/-- Stage 1 of a block-compressed variant, from the collaborator's answer of four bytes a pixel (R113). -/
theorem stage1Answer_of_answer {v : Variant} {s : State} {r : List Byte} (hv : v ∈ blockCompressed)
    (hr : blockDecompress s.cfg (inputBytes s) s.width.toInt.toNat (s.height.toInt.toNat * s.layerCount) v = some r)
    (hl : r.length = s.width.toInt.toNat * (s.height.toInt.toNat * s.layerCount) * 4) : s.stage1Answer v = .ok r :=
  (stage1_of_mem_blockCompressed hv _ _ _ _ _ _).trans (delegate_of_answer hr hl)

/-- The collaborator's failure, or an answer of another length, is `DELEGATE_FAULT` (R113). -/
theorem delegate_of_no_answer {cfg : Config} {input : List Byte} {w h layers : Nat} {v : Variant}
    (hno : ∀ r, blockDecompress cfg input w (h * layers) v = some r → r.length ≠ w * (h * layers) * 4) :
    delegate cfg input w h layers v = .error .delegateFault := by
  unfold delegate
  cases hr : blockDecompress cfg input w (h * layers) v with
  | none => rfl
  | some r => exact if_pos (hno r hr)

/-- A block-compressed variant has no length rule. -/
theorem lengthRight_of_mem_blockCompressed {v : Variant} (hv : v ∈ blockCompressed) (s : State) : LengthRight v s := by
  intro ht
  rw [← hasLengthRule_iff, hasLengthRule_of_mem_blockCompressed hv] at ht
  contradiction

/-! ### The obligations -/

/-- Settles O45: stage 1 answers the input itself, and no length rule is tested. -/
theorem decodePassThroughReturnsTheInput : Obligations.DecodePassThroughReturnsTheInput := by
  intro v hv
  refine ⟨toNat_encode (.pixDecode v), fun s hs hfits => ?_⟩
  have hlen : LengthRight v s := fun ht => absurd hv ((by decide : ∀ u ∈ transformed, u ∉ passedThrough) v ht)
  refine (hs.checked (ne_of_mem_of_not_mem hv (by decide)) hlen).decodesTo (stage1_of_mem_passedThrough hv _ _ _ _ _ _)
    hs.layer_in_range ?_
  rwa [length_inputBytes]

/-- Settles O46: stage 1 is the collaborator's answer of four bytes a pixel or `DELEGATE_FAULT`, and the other two exceptions
are tested after it. -/
theorem decodeBlockReturnsTheCollaboratorsAnswer : Obligations.DecodeBlockReturnsTheCollaboratorsAnswer := by
  intro v hv s
  have hreal : v ≠ .invalid := ne_of_mem_of_not_mem hv (by decide)
  have hlen := lengthRight_of_mem_blockCompressed hv s
  refine ⟨fun r hs hr hl hfits => ?_, fun hw hh hin hno => ?_, fun r hw hh hin hr hl ht => ?_,
    fun r hs hr hl hfits => ?_⟩
  · exact (hs.checked hreal hlen).decodesTo (stage1Answer_of_answer hv hr hl) hs.layer_in_range hfits
  · have hc : DecodeChecked v s := ⟨hreal, ⟨hw, hh⟩, hin, hlen⟩
    exact hc.raises_of_stage1 ((stage1_of_mem_blockCompressed hv _ _ _ _ _ _).trans (delegate_of_no_answer hno))
  · have hc : DecodeChecked v s := ⟨hreal, ⟨hw, hh⟩, hin, hlen⟩
    exact hc.raises_layerRangeFault (stage1Answer_of_answer hv hr hl) ht
  · exact (hs.checked hreal hlen).raises_capacityFault (stage1Answer_of_answer hv hr hl) hs.layer_in_range hfits

/-- Settles O47: the first three exceptions are the operation's tests in order; the last two are those of stage 2 and of the
end, after stage 1 has answered. -/
theorem decodeExceptionsInOrder : Obligations.DecodeExceptionsInOrder := by
  intro v s hv
  refine ⟨fun hdims => ?_, fun hdims hin => ?_, fun hdims hin hlen => ?_, fun hblock hdims hin hlen ht => ?_,
    fun hblock hs hlen hfits => ?_⟩
  · exact raises_of_run (c := .pixDecode v) ((pixDecode_eq hv s).trans (if_pos hdims))
  · refine raises_of_run (c := .pixDecode v) ?_
    rw [Command.run, pixDecode_eq hv, if_neg (not_not.2 hdims), if_pos hin]
  · refine raises_of_run (c := .pixDecode v) ?_
    rw [Command.run, pixDecode_eq hv, if_neg (not_not.2 hdims), if_neg (not_not.2 hin), if_pos hlen]
  · obtain ⟨full, h1, -⟩ := stage1Answer_of_not_mem_blockCompressed hv hblock hlen
    exact DecodeChecked.raises_layerRangeFault ⟨hv, hdims, hin, hlen⟩ h1 ht
  · obtain ⟨full, h1, hfull⟩ := stage1Answer_of_not_mem_blockCompressed hv hblock hlen
    rw [← hfull] at hfits
    exact (hs.checked hv hlen).raises_capacityFault h1 hs.layer_in_range hfits

end Sys2Proof.Machine
end

section
/-! SUPPORT. The transforming decodes pixel by pixel: half-words of the input, four output bytes a pixel, the swap
(43_pixel_decode.md R114 to R118, R134; 44_pixel_encode.md R139). -/

namespace Sys2Proof.Machine

/-! ### Positions -/

/-- The half-word at a position is made of the two bytes there, if both are (20_memory.md R34). -/
theorem halves_getElem?_eq_bind (l : List Byte) (i : Nat) :
    (halves l)[i]? = l[2 * i]?.bind fun a => l[2 * i + 1]?.map (half16 a) := by
  by_cases h : 2 * i + 1 < l.length
  · have h0 : l[2 * i]? = some l[2 * i] := List.getElem?_eq_getElem (by omega)
    have h1 : l[2 * i + 1]? = some l[2 * i + 1] := List.getElem?_eq_getElem h
    rw [halves_getElem? l i _ _ h0 h1, h0, h1]
    rfl
  · have hnone : (halves l)[i]? = none := List.getElem?_eq_none (by rw [length_halves]; omega)
    have h1 : l[2 * i + 1]? = none := List.getElem?_eq_none (by omega)
    rw [hnone, h1]
    cases l[2 * i]? <;> rfl

/-- Two byte sequences that agree on the two bytes of a position have the same half-word there. -/
theorem halves_getElem?_congr {l₁ l₂ : List Byte} {i : Nat} (h : ∀ k, k < 2 → l₁[2 * i + k]? = l₂[2 * i + k]?) :
    (halves l₁)[i]? = (halves l₂)[i]? := by
  have h0 : l₁[2 * i]? = l₂[2 * i]? := h 0 (by decide)
  rw [halves_getElem?_eq_bind, halves_getElem?_eq_bind, h0, h 1 (by decide)]

/-- The half-word at a position of an operation's input (20_memory.md R34, R40). -/
theorem exists_half_of_inputBytes (s : State) {i : Nat} (h : 2 * i + 1 < s.inlen.toNat) :
    ∃ p, (halves (inputBytes s))[i]? = some p ∧ p.toNat = inputHalf s (2 * i) :=
  ⟨_, halves_getElem? _ i _ _ (inputBytes_getElem? s (by omega)) (inputBytes_getElem? s h), toNat_half16 _ _⟩

/-- Four output bytes an element: the four bytes of the element at a position. -/
theorem flatMap_four_of_getElem? {α : Type} {f : α → List Byte} (hf : ∀ a, (f a).length = 4) {l : List α} {i : Nat} {a : α}
    (h : l[i]? = some a) {b0 b1 b2 b3 : Byte} (hb : f a = [b0, b1, b2, b3]) :
    (l.flatMap f)[4 * i]? = some b0 ∧ (l.flatMap f)[4 * i + 1]? = some b1 ∧ (l.flatMap f)[4 * i + 2]? = some b2 ∧
      (l.flatMap f)[4 * i + 3]? = some b3 := by
  have key {c : Nat} (hc : c < 4) : (l.flatMap f)[4 * i + c]? = [b0, b1, b2, b3][c]? := by
    rw [flatMap_four_getElem? f hf l i c hc, h, ← hb]
    rfl
  exact ⟨key (c := 0) (by decide), key (by decide), key (by decide), key (by decide)⟩

/-- The swap exchanges bytes 0 and 2 of every whole pixel (44_pixel_encode.md R139). -/
theorem swap02_getElem? : ∀ {b : List Byte} {i : Nat}, 4 * i + 3 < b.length →
    (swap02 b)[4 * i]? = b[4 * i + 2]? ∧ (swap02 b)[4 * i + 1]? = b[4 * i + 1]? ∧
      (swap02 b)[4 * i + 2]? = b[4 * i]? ∧ (swap02 b)[4 * i + 3]? = b[4 * i + 3]?
  | [], _, h | [_], _, h | [_, _], _, h | [_, _, _], _, h => by simp only [List.length_cons, List.length_nil] at h; omega
  | _ :: _ :: _ :: _ :: _, 0, _ => ⟨rfl, rfl, rfl, rfl⟩
  | _ :: _ :: _ :: _ :: rest, i + 1, h => swap02_getElem? (b := rest) (i := i) (by simp at h; omega)

/-! ### The packed formats as numbers -/

/-- The multiplier a nibble scale names, as the statements write it (90_conflicts.md C2). -/
theorem NibbleScale.factor_eq (k : NibbleScale) : k.factor = if k = .sixteen then 16 else 17 := by
  cases k <;> rfl

/-- The four bytes of a 5-5-5-1 word, from the digits of its number (R114). -/
theorem unpack5551_eq (p : Half) : unpack5551 p =
    [BitVec.ofNat 8 (p.toNat / 1024 % 32 * 8), BitVec.ofNat 8 (p.toNat / 32 % 32 * 8), BitVec.ofNat 8 (p.toNat % 32 * 8),
      BitVec.ofNat 8 (p.toNat / 32768 * 255)] := by
  have hred := field_scaled p 0x7E00 8 10 5 rfl
  have hgreen := field_scaled p 0x03E0 8 5 5 rfl
  have hblue := field_scaled p 0x001F 8 0 5 rfl
  have halpha := field_scaled p 0x8000 255 15 1 rfl
  have htop : p.toNat / 2 ^ 15 % 2 ^ 1 = p.toNat / 32768 := by have := p.isLt; omega
  rw [BitVec.ushiftRight_zero, pow_zero, Nat.div_one] at hblue
  rw [htop] at halpha
  rw [unpack5551, hred, hgreen, hblue, halpha]
  rfl

/-- The four bytes of a 4-4-4-4 word, from the digits of its number (R115). -/
theorem unpack4444_eq (k : NibbleScale) (p : Half) : unpack4444 k p =
    [BitVec.ofNat 8 (p.toNat / 256 % 16 * k.factor), BitVec.ofNat 8 (p.toNat / 16 % 16 * k.factor),
      BitVec.ofNat 8 (p.toNat % 16 * k.factor), BitVec.ofNat 8 (p.toNat / 4096 * k.factor)] := by
  have hfactor : (BitVec.ofNat 16 k.factor).toNat = k.factor := by cases k <;> rfl
  have hred := field_scaled p 0x0F00 (BitVec.ofNat 16 k.factor) 8 4 rfl
  have hgreen := field_scaled p 0x00F0 (BitVec.ofNat 16 k.factor) 4 4 rfl
  have hblue := field_scaled p 0x000F (BitVec.ofNat 16 k.factor) 0 4 rfl
  have halpha := field_scaled p 0xF000 (BitVec.ofNat 16 k.factor) 12 4 rfl
  have htop : p.toNat / 2 ^ 12 % 2 ^ 4 = p.toNat / 4096 := by have := p.isLt; omega
  rw [BitVec.ushiftRight_zero, pow_zero, Nat.div_one] at hblue
  rw [htop] at halpha
  rw [unpack4444, hred, hgreen, hblue, halpha, hfactor]
  rfl

/-! ### The obligations -/

/-- A transforming decode of the right length completes with its stage 1, four bytes a pixel. -/
theorem DecodeReady.decodesTo_of_transformed {v : Variant} {s : State} {full : List Byte} (hs : DecodeReady s)
    (hv : v ∈ transformed) (hlen : s.inlen.toNat = bytesPerPixel v * pixelCount s)
    (hfits : OutputFits s.cfg (sliceLength (4 * pixelCount s) s)) (h1 : s.stage1Answer v = .ok full) :
    full.length = 4 * pixelCount s ∧ DecodesTo v s full := by
  have hright : s.inlen.toNat = pixelCount s * bytesPerPixel v := hlen.trans (Nat.mul_comm _ _)
  have hfull : full.length = 4 * pixelCount s := by
    obtain ⟨full', h1', hfull⟩ := stage1_of_mem_transformed hv s.cfg s.draws s.width.toInt.toNat s.height.toInt.toNat
      s.layerCount ((length_inputBytes s).trans hright)
    cases h1.symm.trans h1'
    exact hfull
  rw [← hfull] at hfits
  exact ⟨hfull, (hs.checked (ne_of_mem_of_not_mem hv (by decide)) fun _ => hright).decodesTo h1 hs.layer_in_range hfits⟩

/-- Settles O39: the pixel at `i` is the unpacked half-word at `i`. -/
theorem decodeA1R5G5B5UnpacksEveryPixel : Obligations.DecodeA1R5G5B5UnpacksEveryPixel := by
  intro s hs hlen hfits
  obtain ⟨hfull, hdec⟩ := hs.decodesTo_of_transformed (v := .a1r5g5b5) (by decide) hlen hfits rfl
  refine ⟨_, hfull, hdec, ?_⟩
  rintro i hi _ rfl
  obtain ⟨p, hp, hnum⟩ := exists_half_of_inputBytes s (i := i) (by omega)
  rw [← hnum]
  exact flatMap_four_of_getElem? (fun _ => rfl) hp (unpack5551_eq p)

/-- Settles O40: the pixel at `i` is the unpacked half-word at `i`, scaled by the configuration's factor. -/
theorem decodeA4R4G4B4UnpacksEveryPixel : Obligations.DecodeA4R4G4B4UnpacksEveryPixel := by
  intro s hs hlen hfits k hk
  obtain ⟨hfull, hdec⟩ := hs.decodesTo_of_transformed (v := .a4r4g4b4) (by decide) hlen hfits rfl
  refine ⟨_, hfull, hdec, ?_⟩
  rintro i hi _ rfl
  obtain ⟨p, hp, hnum⟩ := exists_half_of_inputBytes s (i := i) (by omega)
  rw [← hnum, hk, ← NibbleScale.factor_eq]
  exact flatMap_four_of_getElem? (fun _ => rfl) hp (unpack4444_eq s.cfg.nibbleScale p)

/-- Settles O41: the pixel at `i` is the expanded input byte at `i`, for either variant. -/
theorem decodeL8AndA8ExpandEveryByte : Obligations.DecodeL8AndA8ExpandEveryByte := by
  intro v hv s hs hlen hfits
  have hkind : v ∈ transformed ∧ bytesPerPixel v = 1 ∧
      s.stage1Answer v = .ok ((inputBytes s).flatMap expandGrey) := by
    fin_cases hv <;> exact ⟨by decide, rfl, rfl⟩
  obtain ⟨hv, hbpp, h1⟩ := hkind
  obtain ⟨hfull, hdec⟩ := hs.decodesTo_of_transformed hv (by rw [hbpp, hlen, Nat.one_mul]) hfits h1
  exact ⟨_, hfull, hdec, fun i hi =>
    flatMap_four_of_getElem? (fun _ => rfl) (inputBytes_getElem? s (hi.trans_eq hlen.symm)) rfl⟩

/-- Settles O42: the output is the swapped input. -/
theorem decodeA8R8G8B8SwapsEveryPixel : Obligations.DecodeA8R8G8B8SwapsEveryPixel := by
  intro s hs hlen hfits
  obtain ⟨hfull, hdec⟩ := hs.decodesTo_of_transformed (v := .a8r8g8b8) (by decide) hlen hfits rfl
  refine ⟨_, hfull, hdec, fun i hi => ?_⟩
  have hread {a : Nat} (ha : a < 4 * pixelCount s) : (inputBytes s)[a]? = some (s.ibufByte a) :=
    inputBytes_getElem? s (by omega)
  obtain ⟨h0, h1, h2, h3⟩ := swap02_getElem? (b := inputBytes s) (i := i) (by rw [length_inputBytes]; omega)
  exact ⟨h0.trans (hread (by omega)), h1.trans (hread (by omega)), h2.trans (hread (by omega)),
    h3.trans (hread (by omega))⟩

/-- Settles O49: each transform reads, for the bytes of pixel `i`, only positions of that pixel. -/
theorem outputPixelDependsOnItsInputPixelOnly : Obligations.OutputPixelDependsOnItsInputPixelOnly := by
  refine ⟨?_, fun v hv => stage1_of_mem_passedThrough hv⟩
  intro v hv cfg draw w₁ h₁ l₁ w₂ h₂ l₂ in₁ in₂ out₁ out₂ i _ hlen₁ hlen₂ hi hsame hout₁ hout₂ c hc
  cases v with
  | a1r5g5b5 | a4r4g4b4 =>
    cases hout₁
    cases hout₂
    have hhalf : (halves in₁)[i]? = (halves in₂)[i]? := halves_getElem?_congr hsame
    rw [flatMap_four_getElem? _ (fun _ => rfl) _ _ _ hc, flatMap_four_getElem? _ (fun _ => rfl) _ _ _ hc, hhalf]
  | l8 | a8 =>
    cases hout₁
    cases hout₂
    have hbyte : in₁[i]? = in₂[i]? := by
      rw [← Nat.one_mul i]
      exact hsame 0 (by decide)
    rw [flatMap_four_getElem? _ (fun _ => rfl) _ _ _ hc, flatMap_four_getElem? _ (fun _ => rfl) _ _ _ hc, hbyte]
  | a16b16g16r16f =>
    cases hout₁
    cases hout₂
    have hhalf : (halves in₁)[4 * i + c]? = (halves in₂)[4 * i + c]? := by
      refine halves_getElem?_congr fun k hk => ?_
      rw [show 2 * (4 * i + c) + k = 8 * i + (2 * c + k) by ring]
      exact hsame (2 * c + k) (show 2 * c + k < 8 by omega)
    rw [unpackHalves, unpackHalves, List.getElem?_mapIdx, List.getElem?_mapIdx, hhalf]
  | a8r8g8b8 =>
    cases hout₁
    cases hout₂
    have hwhole : 4 * i + 3 < in₁.length := by
      rw [hlen₁, show bytesPerPixel .a8r8g8b8 = 4 from rfl]
      omega
    obtain ⟨h0, h1, h2, h3⟩ := swap02_getElem? hwhole
    obtain ⟨g0, g1, g2, g3⟩ := swap02_getElem? (hwhole.trans_eq hlen₂.symm)
    interval_cases c
    · exact h0.trans ((hsame 2 (by decide)).trans g0.symm)
    · exact h1.trans ((hsame 1 (by decide)).trans g1.symm)
    · exact h2.trans ((hsame 0 (by decide)).trans g2.symm)
    · exact h3.trans ((hsame 3 (by decide)).trans g3.symm)
  | _ => exact absurd hv (by decide)

end Sys2Proof.Machine
end

section
/-! SUPPORT. The half-float conversion by its cases, as a rounded quotient, and its order (43_pixel_decode.md R119, R120;
30_encoding.md R60). -/

namespace Sys2Proof.Machine

/-! ### The conversion by its cases -/

/-- When a half-float is a number (30_encoding.md R60). -/
theorem halfIsNan_eq_false_iff (h : Half) : halfIsNan h = false ↔ ¬ (halfExp h = 31 ∧ halfFrac h ≠ 0) := by
  simp [halfIsNan]

/-- A negative number converts to 0 (R120). -/
theorem halfToByte_of_negative {h : Half} (nan : Byte) (hnum : halfIsNan h = false) (hsign : halfSign h = true) :
    halfToByte nan h = 0 := by
  simp [halfToByte, hnum, hsign]

/-- A number of at least 1, or plus infinity, converts to 255 (R120). -/
theorem halfToByte_of_one_le {h : Half} (nan : Byte) (hnum : halfIsNan h = false) (hsign : halfSign h = false)
    (hexp : 15 ≤ halfExp h) : halfToByte nan h = 255 := by
  simp [halfToByte, hnum, hsign, hexp]

/-- A number from 0 to below 1 converts to the rounded quotient (R120). -/
theorem halfToByte_of_lt_one {h : Half} (nan : Byte) (hsign : halfSign h = false) (hexp : halfExp h < 15) :
    halfToByte nan h = BitVec.ofNat 8 ((255 * halfSignificand h + 2 ^ (halfShift h - 1)) / 2 ^ halfShift h) := by
  have hnum : halfIsNan h = false := (halfIsNan_eq_false_iff h).2 (by omega)
  simp [halfToByte, hnum, hsign, hexp.not_ge]

/-- Settles O43: the byte at `k` is the conversion of the half-word at `k`, whose fields are the digits of its number. -/
theorem decodeA16B16G16R16FConvertsEveryChannel : Obligations.DecodeA16B16G16R16FConvertsEveryChannel := by
  intro s hs hlen hfits
  obtain ⟨hfull, hdec⟩ := hs.decodesTo_of_transformed (v := .a16b16g16r16f) (by decide) hlen hfits rfl
  refine ⟨_, hfull, hdec, ?_⟩
  rintro k hk _ _ _ rfl rfl rfl hnan
  obtain ⟨p, hp, hp_num⟩ := exists_half_of_inputBytes s (i := k) (by omega)
  obtain ⟨hsign, hexp, hfrac⟩ := half_fields p
  rw [← hp_num, ← hexp, ← hfrac] at hnan ⊢
  have hbyte : (unpackHalves s.draws (inputBytes s))[k]? = some (halfToByte (Config.freeNanByte s.draws k) p) := by
    rw [unpackHalves, List.getElem?_mapIdx, hp]
    rfl
  have hnum : halfIsNan p = false := (halfIsNan_eq_false_iff p).2 hnan
  rw [hbyte]
  refine ⟨fun hneg => ?_, fun hpos hone => ?_, ?_⟩
  · rw [halfToByte_of_negative _ hnum (hsign.trans (decide_eq_true hneg))]
  · rw [halfToByte_of_one_le _ hnum (hsign.trans (decide_eq_false hpos.not_ge)) hone]
  · rintro hpos hlt _ _ rfl rfl
    rw [halfToByte_of_lt_one _ (hsign.trans (decide_eq_false hpos.not_ge)) hlt]
    rfl

/-! ### The conversion as a rounded quotient -/

/-- A significand has 11 bits (30_encoding.md R60). -/
theorem halfSignificand_lt (h : Half) : halfSignificand h < 2048 := by
  obtain ⟨-, -, hfrac⟩ := half_fields h
  unfold halfSignificand
  split_ifs <;> omega

/-- Below 1 the value is a significand over a power of two from 2^11 to 2^24 (R120). -/
theorem halfShift_bounds {h : Half} (hexp : halfExp h < 15) : 11 ≤ halfShift h ∧ halfShift h ≤ 24 := by
  unfold halfShift
  omega

/-- The rounded quotient fits the byte (R120). -/
theorem toNat_halfToByte_of_lt_one {h : Half} (nan : Byte) (hsign : halfSign h = false) (hexp : halfExp h < 15) :
    (halfToByte nan h).toNat = (255 * halfSignificand h + 2 ^ (halfShift h - 1)) / 2 ^ halfShift h := by
  have hsig := halfSignificand_lt h
  have hpow : 2 ^ 11 ≤ 2 ^ halfShift h := Nat.pow_le_pow_right (by decide) (halfShift_bounds hexp).1
  have hhalf : 2 ^ (halfShift h - 1) < 2 ^ halfShift h :=
    Nat.pow_lt_pow_right (by decide) (by have := (halfShift_bounds hexp).1; omega)
  rw [halfToByte_of_lt_one nan hsign hexp, BitVec.toNat_ofNat, Nat.mod_eq_of_lt]
  rw [Nat.div_lt_iff_lt_mul (by positivity)]
  omega

/-- A quotient rounded by adding half of the divisor is the nearest number, a tie going up. -/
theorem rounded_div_nearest (x : Nat) {q : Nat} (hq : 0 < q) :
    2 * x < (2 * ((x + 2 ^ (q - 1)) / 2 ^ q) + 1) * 2 ^ q ∧ 2 * ((x + 2 ^ (q - 1)) / 2 ^ q) * 2 ^ q ≤ 2 * x + 2 ^ q := by
  have hpow : 2 ^ q = 2 * 2 ^ (q - 1) := by rw [← pow_succ', Nat.sub_add_cancel hq]
  have hlow := Nat.div_mul_le_self (x + 2 ^ (q - 1)) (2 ^ q)
  have hhigh := Nat.lt_div_mul_add (a := x + 2 ^ (q - 1)) (b := 2 ^ q) (by positivity)
  rw [Nat.add_mul, Nat.mul_assoc]
  omega

/-! ### The order -/

/-- The value of a half-float of sign 0, in units of 2^-24, the least positive value (30_encoding.md R60). -/
def halfUnits (h : Half) : Nat := halfSignificand h * 2 ^ (max (halfExp h) 1 - 1)

/-- The units grow with the half-float as a number (30_encoding.md R60). -/
theorem halfUnits_mono {h₁ h₂ : Half} (hle : h₁.toNat ≤ h₂.toNat) (hpos : h₂.toNat < 32768) :
    halfUnits h₁ ≤ halfUnits h₂ := by
  obtain ⟨-, hexp₁, hfrac₁⟩ := half_fields h₁
  obtain ⟨-, hexp₂, hfrac₂⟩ := half_fields h₂
  rcases (show halfExp h₁ ≤ halfExp h₂ by omega).eq_or_lt with heq | hlt
  · have hfrac : halfFrac h₁ ≤ halfFrac h₂ := by omega
    unfold halfUnits halfSignificand
    rw [heq]
    gcongr
    split_ifs <;> omega
  · have hsig₂ : 1024 ≤ halfSignificand h₂ := by
      rw [halfSignificand, if_neg (by omega)]
      omega
    have hbinade : halfUnits h₁ ≤ 1024 * 2 ^ (halfExp h₂ - 1) := by
      rcases Nat.eq_zero_or_pos (halfExp h₁) with h0 | h0
      · have hone : 1 ≤ 2 ^ (halfExp h₂ - 1) := Nat.one_le_two_pow
        have hsub : halfUnits h₁ = halfFrac h₁ := by simp [halfUnits, halfSignificand, h0]
        omega
      · have hstep : 2 * 2 ^ (halfExp h₁ - 1) ≤ 2 ^ (halfExp h₂ - 1) := by
          rw [← pow_succ']
          exact Nat.pow_le_pow_right (by decide) (by omega)
        calc halfUnits h₁ = halfSignificand h₁ * 2 ^ (halfExp h₁ - 1) := by rw [halfUnits, max_eq_left h0]
          _ ≤ 2048 * 2 ^ (halfExp h₁ - 1) := Nat.mul_le_mul_right _ (halfSignificand_lt h₁).le
          _ ≤ 1024 * 2 ^ (halfExp h₂ - 1) := by omega
    calc halfUnits h₁ ≤ 1024 * 2 ^ (halfExp h₂ - 1) := hbinade
      _ ≤ halfSignificand h₂ * 2 ^ (halfExp h₂ - 1) := Nat.mul_le_mul_right _ hsig₂
      _ = halfUnits h₂ := by rw [halfUnits, max_eq_left (by omega)]

/-- Below 1 the byte is the units times 255, over 2^24, rounded (R120). -/
theorem toNat_halfToByte_eq_units {h : Half} (nan : Byte) (hsign : halfSign h = false) (hexp : halfExp h < 15) :
    (halfToByte nan h).toNat = (255 * halfUnits h + 2 ^ 23) / 2 ^ 24 := by
  obtain ⟨hlow, hhigh⟩ := halfShift_bounds hexp
  have hunits : halfUnits h = halfSignificand h * 2 ^ (24 - halfShift h) := by
    rw [halfUnits, show max (halfExp h) 1 - 1 = 24 - halfShift h by unfold halfShift; omega]
  have hden : 2 ^ halfShift h * 2 ^ (24 - halfShift h) = 2 ^ 24 := by
    rw [← pow_add, show halfShift h + (24 - halfShift h) = 24 by omega]
  have hround : 2 ^ (halfShift h - 1) * 2 ^ (24 - halfShift h) = 2 ^ 23 := by
    rw [← pow_add, show halfShift h - 1 + (24 - halfShift h) = 23 by omega]
  rw [toNat_halfToByte_of_lt_one nan hsign hexp, hunits, ← hround, ← hden, ← Nat.mul_assoc, ← Nat.add_mul,
    Nat.mul_div_mul_right _ _ (by positivity)]

/-- Settles O44: the byte is a rounded quotient, and below 1 that of the units, which grow with the half-float; from 1 up the
byte is the greatest one. -/
theorem halfToByteIsNearestAndMonotone : Obligations.HalfToByteIsNearestAndMonotone := by
  refine ⟨fun nan h hsign hexp => ?_, fun nan h₁ h₂ hle htop => ?_⟩
  · rw [toNat_halfToByte_of_lt_one nan hsign hexp]
    exact rounded_div_nearest _ (by have := (halfShift_bounds hexp).1; omega)
  · obtain ⟨hsign₁, hexp₁, -⟩ := half_fields h₁
    obtain ⟨hsign₂, hexp₂, hfrac₂⟩ := half_fields h₂
    have hpos₁ : halfSign h₁ = false := hsign₁.trans (decide_eq_false (by omega))
    have hpos₂ : halfSign h₂ = false := hsign₂.trans (decide_eq_false (by omega))
    rcases Nat.lt_or_ge (halfExp h₂) 15 with hlt | hone
    · rw [toNat_halfToByte_eq_units nan hpos₁ (by omega), toNat_halfToByte_eq_units nan hpos₂ hlt]
      have := halfUnits_mono hle (by omega)
      gcongr
    · have hnum : halfIsNan h₂ = false := (halfIsNan_eq_false_iff h₂).2 (by omega)
      rw [halfToByte_of_one_le nan hnum hpos₂ hone]
      exact Nat.le_of_lt_succ (halfToByte nan h₁).isLt

end Sys2Proof.Machine
end

section
/-! SUPPORT. `PIX.ENCODE`: its tests in order, its copy or swap of the input, and the decode that undoes the swap
(44_pixel_encode.md R135 to R139 and section 4). -/

namespace Sys2Proof.Machine

/-- The swap is its own inverse; it leaves a tail shorter than a pixel alone (R139). -/
theorem swap02_swap02 : (b : List Byte) → swap02 (swap02 b) = b
  | [] | [_] | [_, _] | [_, _, _] => rfl
  | _ :: _ :: _ :: _ :: rest => by simp only [swap02, swap02_swap02 rest]

/-- The encode swaps pixels instead of copying (R136). -/
abbrev SwapsPixels (v : Variant) (s : State) : Prop := v = .a8r8g8b8 ∧ 1 < s.layerCount

/-- The encode would swap an input that is no whole number of pixels (R136). -/
abbrev SwapLengthWrong (v : Variant) (s : State) : Prop := v = .a8r8g8b8 ∧ 1 < s.layerCount ∧ s.inlen.toNat % 4 ≠ 0

/-- What an encode writes: its input, copied or swapped (R136, R137). -/
def State.encoded (s : State) (v : Variant) : List Byte :=
  if SwapsPixels v s then swap02 (inputBytes s) else inputBytes s

theorem swapDue_iff {v : Variant} {s : State} : swapDue v s.layerCount = true ↔ SwapsPixels v s := by
  simp only [swapDue, Bool.and_eq_true, decide_eq_true_iff]

theorem State.length_encoded (s : State) (v : Variant) : (s.encoded v).length = s.inlen.toNat := by
  rw [State.encoded, apply_ite List.length, length_swap02, ite_self, length_inputBytes]

/-- `PIX.ENCODE` of a variant but `INVALID`: the test of the input against its capacity, that of the length of a swap, and
the end (R135). -/
theorem pixEncode_eq {v : Variant} (hv : v ≠ .invalid) (s : State) : pixEncode v s =
    if ¬ fits s.inlen.toNat s.cfg.ibufCap then .error .capacityFault
    else if SwapLengthWrong v s then .error .lengthFault
    else s.complete (s.encoded v) := by
  simp only [pixEncode, if_neg hv, swapDue_iff, memRead_inputLength, ← exceeds_eq_false_iff, Bool.not_eq_false, and_assoc]
  rfl

/-- An encode past its tests ends with the input, copied or swapped (R135). -/
theorem run_pixEncode {v : Variant} {s : State} (hv : v ≠ .invalid) (hin : fits s.inlen.toNat s.cfg.ibufCap)
    (hlen : ¬ SwapLengthWrong v s) : Command.run (.pixEncode v) s = s.complete (s.encoded v) := by
  rw [Command.run, pixEncode_eq hv, if_neg (not_not.2 hin), if_neg hlen]

/-- An encode past its tests completes if its output fits (R135). -/
theorem pixEncode_completes {v : Variant} {s : State} (hv : v ≠ .invalid) (hin : fits s.inlen.toNat s.cfg.ibufCap)
    (hlen : ¬ SwapLengthWrong v s) (hfits : OutputFits s.cfg s.inlen.toNat) :
    ∃ t, Completes (Command.pixEncode v).instr s t (s.encoded v) [] := by
  rw [← s.length_encoded v] at hfits
  exact ⟨_, completes_of_run ((run_pixEncode hv hin hlen).trans (State.complete_of_fits hfits))
    (finishedWith_finish [] hfits)⟩

/-- An encode that ended in `DONE` left its success state. -/
theorem eq_finish_of_encode_done {v : Variant} {s t : State} (hv : v ≠ .invalid)
    (h : exec (Command.pixEncode v).instr s = .next t) (hdone : statusState t.status = stateDone) :
    t = s.finish (s.encoded v) := by
  have hrun : pixEncode v s = .ok t := run_ok_of_done h hdone
  rw [pixEncode_eq hv] at hrun
  split_ifs at hrun
  rcases s.complete_cases (s.encoded v) with ⟨hend, -⟩ | ⟨hend, -⟩ | ⟨hend, -⟩ <;> rw [hend] at hrun <;> cases hrun
  rfl

/-- An input of as many bytes as a sequence, which the buffer holds at each index, is that sequence (20_memory.md R40). -/
theorem inputBytes_eq_of_byte? {p : State} {bytes : List Byte} (hlen : p.inlen.toNat = bytes.length)
    (hbytes : ∀ a, a < bytes.length → p.ibuf.byte? a = bytes[a]?) : inputBytes p = bytes := by
  refine List.ext_getElem ((length_inputBytes p).trans hlen) fun a _ ha => ?_
  simp [inputBytes, State.ibufByte, hbytes a ha, ha]

/-! ### The obligations -/

/-- Settles O50: by the recursion of the swap over whole pixels. -/
theorem swapIsPositionalAndSelfInverse : Obligations.SwapIsPositionalAndSelfInverse :=
  fun b _ => ⟨length_swap02 b, swap02_swap02 b, fun _ hi => swap02_getElem? (by omega)⟩

/-- Settles O51: the encode completes with the input, copied or swapped, and the swap is known by position. -/
theorem encodeCopiesOrSwaps : Obligations.EncodeCopiesOrSwaps := by
  intro v s hv hin hfits
  refine ⟨toNat_encode (.pixEncode v), fun hcopy => ?_, fun hvar hlayers hmul => ?_⟩
  · have hnoswap : ¬ SwapsPixels v s := fun ⟨hvar, hlayers⟩ => hcopy.elim (· hvar) hlayers.ne'
    have hcompletes := pixEncode_completes hv hin (fun h => hnoswap ⟨h.1, h.2.1⟩) hfits
    rwa [State.encoded, if_neg hnoswap] at hcompletes
  · obtain ⟨t, hcompletes⟩ := pixEncode_completes hv hin (fun h => h.2.2 hmul) hfits
    refine ⟨t, _, hcompletes, s.length_encoded v, fun i hi => ?_⟩
    have hread {a : Nat} (ha : a < s.inlen.toNat) : (inputBytes s)[a]? = some (s.ibufByte a) := inputBytes_getElem? s ha
    obtain ⟨h0, h1, h2, h3⟩ := swap02_getElem? (b := inputBytes s) (i := i) (by rw [length_inputBytes]; omega)
    rw [State.encoded, if_pos ⟨hvar, hlayers⟩]
    exact ⟨h0.trans (hread (by omega)), h1.trans (hread (by omega)), h2.trans (hread (by omega)),
      h3.trans (hread (by omega))⟩

/-- Settles O52: the first two exceptions are the operation's tests in order, the third is that of its end. -/
theorem encodeExceptionsInOrder : Obligations.EncodeExceptionsInOrder := by
  intro v s hv
  refine ⟨fun hin => ?_, fun hin hlen => ?_, fun hin hlen hfits => ?_⟩
  · exact raises_of_run (c := .pixEncode v) ((pixEncode_eq hv s).trans (if_pos hin))
  · refine raises_of_run (c := .pixEncode v) ?_
    rw [Command.run, pixEncode_eq hv, if_neg (not_not.2 hin), if_pos hlen]
  · rw [← s.length_encoded v] at hfits
    exact raises_of_run ((run_pixEncode hv hin hlen).trans (State.complete_of_not_fits hfits))

/-- Settles O53: the decode's input is the swapped input of the encode, and its stage 1 swaps once more. -/
theorem encodeThenDecodeA8R8G8B8IsTheIdentity : Obligations.EncodeThenDecodeA8R8G8B8IsTheIdentity := by
  intro s t p hexec hdone hlayers hready htarget _ hinlen hlen hfits hinput
  obtain rfl := eq_finish_of_encode_done (v := .a8r8g8b8) (by decide) hexec hdone
  have hswapped : s.encoded .a8r8g8b8 = swap02 (inputBytes s) := if_pos ⟨rfl, hlayers⟩
  have houtlen : (s.finish (s.encoded .a8r8g8b8)).outlen.toNat = (s.encoded .a8r8g8b8).length := by
    rw [State.finish_outlen, BitVec.toNat_ofNat, Nat.mod_eq_of_lt (s.length_encoded _ ▸ s.inlen.isLt)]
  have hlength : p.inlen.toNat = (s.encoded .a8r8g8b8).length := hinlen ▸ houtlen
  have hbytes : inputBytes p = swap02 (inputBytes s) := by
    rw [← hswapped]
    exact inputBytes_eq_of_byte? hlength fun a ha => (hinput a (houtlen ▸ ha)).trans (Memory.byte?_ofBytes_zero _ a)
  have hstage1 : p.stage1Answer .a8r8g8b8 = .ok (inputBytes s) := by
    rw [← swap02_swap02 (inputBytes s), ← hbytes]
    rfl
  obtain ⟨-, hdecodes⟩ := hready.decodesTo_of_transformed (v := .a8r8g8b8) (by decide)
    ((hlength.trans (s.length_encoded _)).trans hlen) (by rwa [sliceLength, if_pos htarget]) hstage1
  rwa [DecodesTo, layerSlice, if_pos htarget] at hdecodes

end Sys2Proof.Machine
end

section
/-! SUPPORT. The base case of the machine invariant (10_state.md section 7). -/

namespace Sys2Proof.Machine

/-- The reset state is a fixed point of the reset action: what the action keeps is at its reset value already. -/
theorem State.applyReset_reset : State.reset.applyReset = State.reset := rfl

/-- Settles O11: the reset action makes the invariant in every state, and it leaves the reset state as it is. -/
theorem resetMeetsTheInvariant : Obligations.ResetMeetsTheInvariant := by
  have hinv : State.reset.applyReset.Inv := State.applyReset_inv State.reset
  rwa [State.applyReset_reset] at hinv

end Sys2Proof.Machine
end
